-- ==== Sys2Proof/Word.lean ====
section
/-! DEFINITION. The word types of the engine. -/

namespace Sys2Proof

/-- One byte of the scratchpad or of the Keccak state (R26, R52). -/
abbrev Byte := BitVec 8

/-- A host data word, a command word, or a window register (R8, R38, R70). -/
abbrev Word := BitVec 32

/-- A lane of the Keccak state (R7, R25). -/
abbrev Lane := BitVec 64

/-- The contents of an element register (R32). -/
abbrev Elem := BitVec 256

/-- A host byte offset into the register window, and the width of ARG_ADDR and ARG_LEN (R8, R43). -/
abbrev Offset := BitVec 13

/-- The index of an element register E0 to E15: every value of the 4-bit field is legal (R72). -/
abbrev EReg := Fin 16

/-- The index of a point register P0 to P7: the low three bits of its field (R73). -/
abbrev PReg := Fin 8

end Sys2Proof
end

