-- ==== Sys2Proof/Syntax.lean ====
section
/-! DEFINITION. The commands of the engine, one constructor per row of spec/opcode_table.json (R76). -/

namespace Sys2Proof

/-- The modulus select bit M: 0 selects p, 1 selects r (R70, R114). -/
inductive Modulus where
  /-- M = 0: the field modulus p. -/
  | p
  /-- M = 1: the group order r. -/
  | r
  deriving DecidableEq, Repr

/-- The command words, operands destination first (R75, R80). `lsb` is the bit L. The scratchpad range of a memory
command is not in the word (R74). The variant code of KINIT is the raw 3-bit field, of which 6 and 7 are ill formed
(R76, R78). -/
inductive Instr where
  | nop
  | kinit (v : BitVec 3)
  | kabs
  | kfin
  | ksqz
  | kdig
  | kperm
  | krel
  | fadd (m : Modulus) (rd rs1 rs2 : EReg)
  | fsub (m : Modulus) (rd rs1 rs2 : EReg)
  | fmul (m : Modulus) (rd rs1 rs2 : EReg)
  | fpow (m : Modulus) (rd rs1 rs2 : EReg)
  | fneg (m : Modulus) (rd rs1 : EReg)
  | finv (m : Modulus) (rd rs1 : EReg)
  | fred (m : Modulus) (rd rs1 : EReg)
  | fsqrt (rd rs1 : EReg) (lsb : Bool)
  | fmov (rd rs1 : EReg)
  | ldbe (m : Modulus) (rd : EReg)
  | stbe (rs1 : EReg)
  | pneut (pd : PReg)
  | pgen (pd : PReg)
  | padd (pd pa pb : PReg)
  | pneg (pd pa : PReg)
  | pmul (pd pa : PReg) (rs2 : EReg)
  | peq (pa pb : PReg)
  | ponc (pa : PReg)
  | pcomp (rd : EReg) (pa : PReg)
  | pdec (pd : PReg) (rs1 : EReg) (lsb : Bool)
  deriving DecidableEq, Repr

end Sys2Proof
end

