-- ==== Sys2Proof/WellFormed.lean ====
section
/-! DEFINITION. Which commands are well formed. The register operands, M and L have no ill-formed value (R72, R74);
a point operand is its three bits already (R73); the variant code has two. -/

namespace Sys2Proof

/-- KINIT needs a variant code of 0 to 5; every other command is well formed as it stands (R76, R78). -/
def Instr.wellFormed : Instr → Bool
  | .nop => true
  | .kinit v => v.toNat ≤ 5
  | .kabs => true
  | .kfin => true
  | .ksqz => true
  | .kdig => true
  | .kperm => true
  | .krel => true
  | .fadd _ _ _ _ => true
  | .fsub _ _ _ _ => true
  | .fmul _ _ _ _ => true
  | .fpow _ _ _ _ => true
  | .fneg _ _ _ => true
  | .finv _ _ _ => true
  | .fred _ _ _ => true
  | .fsqrt _ _ _ => true
  | .fmov _ _ => true
  | .ldbe _ _ => true
  | .stbe _ => true
  | .pneut _ => true
  | .pgen _ => true
  | .padd _ _ _ => true
  | .pneg _ _ => true
  | .pmul _ _ _ => true
  | .peq _ _ => true
  | .ponc _ => true
  | .pcomp _ _ => true
  | .pdec _ _ _ => true

end Sys2Proof
end

