-- ==== Sys2Proof/Decode.lean ====
section
/-! DEFINITION. The decoder of command words and, after it, the encoder, both from the encoding tables of
30_encoding.md. A command is exactly one 32-bit word (R71). -/

namespace Sys2Proof

/-- Why a word is no command: the two decode errors, in the order of R78. -/
inductive DecodeError where
  /-- w[7:0] is not an assigned opcode (R79). -/
  | illegalOpcode
  /-- A reserved or unused bit is 1, the top bit of a point field is 1, or KINIT has V = 6 or 7 (R78). -/
  | illegalField
  deriving DecidableEq, Repr

/-- The 4-bit element register field whose lowest bit is `lo` (R72). -/
def eregField (w : Word) (lo : Nat) : EReg := (w.extractLsb' lo 4).toFin

/-- The low three bits of the point register field whose lowest bit is `lo` (R73). -/
def pregField (w : Word) (lo : Nat) : PReg := (w.extractLsb' lo 3).toFin

/-- The modulus select M, bit 20 (R70). -/
def modulusField (w : Word) : Modulus := if w.getLsbD 20 then .r else .p

/-- The requested parity L, bit 21 (R70). -/
def lsbField (w : Word) : Bool := w.getLsbD 21

/-- The variant code V, bits 26:24 (R70). -/
def variantField (w : Word) : BitVec 3 := w.extractLsb' 24 3

/-- One row of the opcode map (R76): the opcode, the match and mask words, and the command the fields make. -/
structure OpRow where
  op : BitVec 8
  pattern : Word
  mask : Word
  build : Word → Instr

/-- The opcode map: the control, Keccak and sponge rows (R76). -/
def spongeRows : List OpRow := [
  ⟨0x00, 0x00000000, 0xFFFFFFFF, fun _ => .nop⟩,
  ⟨0x10, 0x00000010, 0xF8FFFFFF, fun w => .kinit (variantField w)⟩,
  ⟨0x11, 0x00000011, 0xFFFFFFFF, fun _ => .kabs⟩,
  ⟨0x12, 0x00000012, 0xFFFFFFFF, fun _ => .kfin⟩,
  ⟨0x13, 0x00000013, 0xFFFFFFFF, fun _ => .ksqz⟩,
  ⟨0x14, 0x00000014, 0xFFFFFFFF, fun _ => .kdig⟩,
  ⟨0x15, 0x00000015, 0xFFFFFFFF, fun _ => .kperm⟩,
  ⟨0x16, 0x00000016, 0xFFFFFFFF, fun _ => .krel⟩]

/-- The opcode map: the field and scratchpad transfer rows (R76). -/
def fieldRows : List OpRow := [
  ⟨0x20, 0x00000020, 0xFFE000FF, fun w => .fadd (modulusField w) (eregField w 8) (eregField w 12) (eregField w 16)⟩,
  ⟨0x21, 0x00000021, 0xFFE000FF, fun w => .fsub (modulusField w) (eregField w 8) (eregField w 12) (eregField w 16)⟩,
  ⟨0x22, 0x00000022, 0xFFE000FF, fun w => .fmul (modulusField w) (eregField w 8) (eregField w 12) (eregField w 16)⟩,
  ⟨0x23, 0x00000023, 0xFFE000FF, fun w => .fpow (modulusField w) (eregField w 8) (eregField w 12) (eregField w 16)⟩,
  ⟨0x24, 0x00000024, 0xFFEF00FF, fun w => .fneg (modulusField w) (eregField w 8) (eregField w 12)⟩,
  ⟨0x25, 0x00000025, 0xFFEF00FF, fun w => .finv (modulusField w) (eregField w 8) (eregField w 12)⟩,
  ⟨0x26, 0x00000026, 0xFFEF00FF, fun w => .fred (modulusField w) (eregField w 8) (eregField w 12)⟩,
  ⟨0x27, 0x00000027, 0xFFDF00FF, fun w => .fsqrt (eregField w 8) (eregField w 12) (lsbField w)⟩,
  ⟨0x28, 0x00000028, 0xFFFF00FF, fun w => .fmov (eregField w 8) (eregField w 12)⟩,
  ⟨0x30, 0x00000030, 0xFFEFF0FF, fun w => .ldbe (modulusField w) (eregField w 8)⟩,
  ⟨0x31, 0x00000031, 0xFFFF0FFF, fun w => .stbe (eregField w 12)⟩]

/-- The opcode map: the Edwards rows (R76). -/
def edwardsRows : List OpRow := [
  ⟨0x40, 0x00000040, 0xFFFFF8FF, fun w => .pneut (pregField w 8)⟩,
  ⟨0x41, 0x00000041, 0xFFFFF8FF, fun w => .pgen (pregField w 8)⟩,
  ⟨0x42, 0x00000042, 0xFFF888FF, fun w => .padd (pregField w 8) (pregField w 12) (pregField w 16)⟩,
  ⟨0x43, 0x00000043, 0xFFFF88FF, fun w => .pneg (pregField w 8) (pregField w 12)⟩,
  ⟨0x44, 0x00000044, 0xFFF088FF, fun w => .pmul (pregField w 8) (pregField w 12) (eregField w 16)⟩,
  ⟨0x45, 0x00000045, 0xFFF88FFF, fun w => .peq (pregField w 12) (pregField w 16)⟩,
  ⟨0x46, 0x00000046, 0xFFFF8FFF, fun w => .ponc (pregField w 12)⟩,
  ⟨0x47, 0x00000047, 0xFFFF80FF, fun w => .pcomp (eregField w 8) (pregField w 12)⟩,
  ⟨0x48, 0x00000048, 0xFFDF08FF, fun w => .pdec (pregField w 8) (eregField w 12) (lsbField w)⟩]

/-- The whole opcode map (R76). -/
def opTable : List OpRow := spongeRows ++ fieldRows ++ edwardsRows

/-- The decode check, in its order: the opcode, then the bits under the mask, then KINIT's variant code (R78). -/
def decode (w : Word) : Except DecodeError Instr :=
  match opTable.find? (fun row => row.op == w.extractLsb' 0 8) with
  | none => .error .illegalOpcode
  | some row =>
    if w &&& row.mask ≠ row.pattern then .error .illegalField
    else if (row.build w).wellFormed then .ok (row.build w)
    else .error .illegalField

/-- The instruction the decoder reads from a table row's word: one 32-bit word, the bits above `nbits` zero (R71). -/
def decodeTableWord (nbits w : Nat) : Option Instr :=
  match decode (BitVec.ofNat 32 (w % 2 ^ nbits)) with
  | .ok i => some i
  | .error _ => none

/-- The value of the bit M for a modulus (R70). -/
def modulusBit : Modulus → Nat
  | .p => 0
  | .r => 1

/-- The command word of its fields: OP + 2^8*RD + 2^12*RS1 + 2^16*RS2 + 2^20*M + 2^21*L + 2^24*V (R77). -/
def encodeFields (op rd rs1 rs2 m l v : Nat) : Word :=
  BitVec.ofNat 32 (op + 2 ^ 8 * rd + 2 ^ 12 * rs1 + 2 ^ 16 * rs2 + 2 ^ 20 * m + 2 ^ 21 * l + 2 ^ 24 * v)

/-- The word of a command, each unused field 0 (R77). -/
def encode : Instr → Word
  | .nop => encodeFields 0x00 0 0 0 0 0 0
  | .kinit v => encodeFields 0x10 0 0 0 0 0 v.toNat
  | .kabs => encodeFields 0x11 0 0 0 0 0 0
  | .kfin => encodeFields 0x12 0 0 0 0 0 0
  | .ksqz => encodeFields 0x13 0 0 0 0 0 0
  | .kdig => encodeFields 0x14 0 0 0 0 0 0
  | .kperm => encodeFields 0x15 0 0 0 0 0 0
  | .krel => encodeFields 0x16 0 0 0 0 0 0
  | .fadd m rd rs1 rs2 => encodeFields 0x20 rd rs1 rs2 (modulusBit m) 0 0
  | .fsub m rd rs1 rs2 => encodeFields 0x21 rd rs1 rs2 (modulusBit m) 0 0
  | .fmul m rd rs1 rs2 => encodeFields 0x22 rd rs1 rs2 (modulusBit m) 0 0
  | .fpow m rd rs1 rs2 => encodeFields 0x23 rd rs1 rs2 (modulusBit m) 0 0
  | .fneg m rd rs1 => encodeFields 0x24 rd rs1 0 (modulusBit m) 0 0
  | .finv m rd rs1 => encodeFields 0x25 rd rs1 0 (modulusBit m) 0 0
  | .fred m rd rs1 => encodeFields 0x26 rd rs1 0 (modulusBit m) 0 0
  | .fsqrt rd rs1 lsb => encodeFields 0x27 rd rs1 0 0 lsb.toNat 0
  | .fmov rd rs1 => encodeFields 0x28 rd rs1 0 0 0 0
  | .ldbe m rd => encodeFields 0x30 rd 0 0 (modulusBit m) 0 0
  | .stbe rs1 => encodeFields 0x31 0 rs1 0 0 0 0
  | .pneut pd => encodeFields 0x40 pd 0 0 0 0 0
  | .pgen pd => encodeFields 0x41 pd 0 0 0 0 0
  | .padd pd pa pb => encodeFields 0x42 pd pa pb 0 0 0
  | .pneg pd pa => encodeFields 0x43 pd pa 0 0 0 0
  | .pmul pd pa rs2 => encodeFields 0x44 pd pa rs2 0 0 0
  | .peq pa pb => encodeFields 0x45 0 pa pb 0 0 0
  | .ponc pa => encodeFields 0x46 0 pa 0 0 0 0
  | .pcomp rd pa => encodeFields 0x47 rd pa 0 0 0 0
  | .pdec pd rs1 lsb => encodeFields 0x48 pd rs1 0 0 lsb.toNat 0

end Sys2Proof
end

