-- ==== Sys2Proof/Machine/State.lean ====
section
/-! DEFINITION. The state of the engine (10_state.md), the reasons a step can stop, and the state after reset. -/

namespace Sys2Proof.Machine

/-- Five like things, by position. The Keccak state is five rows of five lanes (R25). -/
structure Five (α : Type) where
  x0 : α
  x1 : α
  x2 : α
  x3 : α
  x4 : α
  deriving DecidableEq, Repr

/-- The Keccak state A: row y holds lane A[y][x] at place x (R25). -/
abbrev KeccakState := Five (Five Lane)

/-- The sponge phase, codes 0, 1 and 2; the code 3 is never held (R28). -/
inductive Phase where
  | uninit
  | absorbing
  | squeezing
  deriving DecidableEq, Repr

/-- The sponge variant, codes 0 to 5 in this order; 6 and 7 are never held (R10, R29). -/
inductive Variant where
  | sha3_224
  | sha3_256
  | sha3_384
  | sha3_512
  | shake128
  | shake256
  deriving DecidableEq, Repr

/-- The errors the engine records, codes 1 to 6 in this order; 7 to 15 are never produced (R154). -/
inductive ErrorName where
  /-- The opcode is not assigned. Raised by the engine at decode. -/
  | illegalOpcode
  /-- A reserved or unused bit is 1, or KINIT has V = 6 or 7. Raised by the engine at decode. -/
  | illegalField
  /-- The phase or variant does not allow the command. Raised by KABS, KFIN, KSQZ and KDIG. -/
  | spongeState
  /-- The scratchpad range or length is too long. Raised by KABS, KSQZ, KDIG, LDBE and STBE. -/
  | range
  /-- An inverse of 0 was needed. Raised by FINV, PADD and PMUL. -/
  | noInverse
  /-- The host wrote a Protected offset while BUSY = 1. Raised by a host write. -/
  | busyViolation
  deriving DecidableEq, Repr

/-- The Keccak state and the sponge controller registers. -/
structure Sponge where
  /-- A (R25). -/
  a : KeccakState
  /-- PHASE (R28). -/
  phase : Phase
  /-- VAR (R29). -/
  variant : Variant
  /-- RATE, in bytes (R30). -/
  rate : BitVec 8
  /-- POS, the byte cursor (R31). -/
  pos : BitVec 8
  deriving DecidableEq, Repr

/-- FLAGS, bits 0 to 6 in this order (R35). -/
structure Flags where
  z : Bool
  eq : Bool
  onc : Bool
  xlsb : Bool
  noroot : Bool
  notors : Bool
  iso : Bool
  deriving DecidableEq, Repr

/-- The scratchpad's written bytes, addresses strictly rising; a byte that is not listed has no value (R52, R53). -/
abbrev Memory := List Host.Cell

/-- One turn of an execution, the interleaving of host transactions and engine steps (R65), and the reset input (R172).
The model's own; log entry 3. -/
inductive Turn where
  /-- The host reads the word at an offset (R56). -/
  | hostRead (off : Offset)
  /-- The host writes a word to an offset (R55). -/
  | hostWrite (off : Offset) (v : Word)
  /-- The engine takes its step, if one is enabled (R83). -/
  | engine
  /-- The platform asserts and releases the reset input (R172). -/
  | hardReset
  deriving DecidableEq, Repr

/-- The whole state: 10_state.md R24, and the model's own last three fields. -/
structure State where
  /-- A, PHASE, VAR, RATE and POS (R25, R28 to R31). -/
  sponge : Sponge
  /-- The element registers E0 to E15; the point registers are pairs of them (R32, R33). -/
  e : Vector Elem 16
  /-- FLAGS (R35). -/
  flags : Flags
  /-- SCRATCH (R52). -/
  scratch : Memory
  /-- CTRL.IE_DONE (R40). -/
  ieDone : Bool
  /-- CTRL.IE_ERR (R40). -/
  ieErr : Bool
  /-- STATUS.BUSY (R41). -/
  busy : Bool
  /-- STATUS.DONE (R41). -/
  done : Bool
  /-- STATUS.ERR (R41). -/
  err : Bool
  /-- STATUS.ERRCODE, none for code 0 (R41, R154). -/
  errCode : Option ErrorName
  /-- ERRINFO (R45). -/
  errInfo : Word
  /-- ARG_ADDR (R43). -/
  argAddr : Offset
  /-- ARG_LEN (R43). -/
  argLen : Offset
  /-- CMD_L, the latched command word (R36). -/
  cmdL : Word
  /-- ADDR_L, the latched ARG_ADDR (R36). -/
  addrL : Offset
  /-- LEN_L, the latched ARG_LEN (R36). -/
  lenL : Offset
  /-- The model's own: the turns still to come, the next one first (R65). Log entry 3. -/
  schedule : List Turn
  /-- The model's own: what the last host read returned (R56). Log entry 4. -/
  readData : Option Word
  /-- The model's own: how many free values have been drawn. Log entry 5. -/
  draws : Nat
  deriving DecidableEq, Repr

/-- Why the model stops with a fault: the two model faults the spec asks for. -/
inductive Fault where
  /-- A host read, KABS or LDBE read a scratchpad byte that nothing has written since power-on (R53, R174). Safe: the
  hardware reads some value that no proof may use. -/
  | unwrittenRead
  /-- A host transaction at an offset that is not a multiple of 4, whose error response the model treats as a host-side
  fault (R54). Safe: nothing is claimed of what follows. -/
  | misaligned
  deriving DecidableEq, Repr

/-- Why the model gives no meaning. -/
inductive Refusal where
  /-- The command has no meaning in the model. Raised by an arm of `exec` that is not modelled; no arm is. Safe. -/
  | notModelled (mnemonic : String)
  deriving DecidableEq, Repr

/-- The Keccak state with every lane 0 (R50, R105). -/
def zeroKeccak : KeccakState :=
  let row : Five Lane := ⟨0, 0, 0, 0, 0⟩
  ⟨row, row, row, row, row⟩

/-- The sponge after reset and after KREL: A zero, UNINIT, VAR = RATE = POS = 0 (R50, R110). -/
def resetSponge : Sponge := ⟨zeroKeccak, .uninit, .sha3_224, 0, 0⟩

/-- The machine right after a hard reset (R50, R172): every register 0, the scratchpad with no byte written, and the
command latch 0 (DESIGN CHOICE, log entry 1: the spec gives it no value). -/
def State.reset : State where
  sponge := resetSponge
  e := Vector.replicate 16 0
  flags := ⟨false, false, false, false, false, false, false⟩
  scratch := []
  ieDone := false
  ieErr := false
  busy := false
  done := false
  err := false
  errCode := none
  errInfo := 0
  argAddr := 0
  argLen := 0
  cmdL := 0
  addrL := 0
  lenL := 0
  schedule := []
  readData := none
  draws := 0

end Sys2Proof.Machine
end

