-- ==== Sys2Proof/Machine/Constants.lean ====
section
/-! DEFINITION. The fixed tables of the spec: the primes, the curve, the sponge variants, the Keccak constants and
the error codes. -/

namespace Sys2Proof.Machine

/-- p, the field modulus (R19). -/
def primeP : Nat := 2 ^ 256 - 189

/-- r, the order of the generator's subgroup (R19). -/
def orderR : Nat := 2 ^ 254 - 87175310462106073678594642380840586067

/-- d, the curve constant (R19). -/
def curveD : Nat := 15343

/-- Gx, the even root (R19, R134). -/
def genX : Nat := 0x9f1814d36a53e7cbcf8d769b669bc9a3074480dcbc5ca645a872b68cc0b16f8e

/-- Gy = (-4) mod p (R19, R134). -/
def genY : Nat := primeP - 4

/-- The modulus a command's M selects (R114). -/
def modulusValue : Modulus → Nat
  | .p => primeP
  | .r => orderR

/-- The code of a phase (R28). -/
def phaseCode : Phase → Nat
  | .uninit => 0
  | .absorbing => 1
  | .squeezing => 2

/-- The code of a variant (R10). -/
def variantCode : Variant → Nat
  | .sha3_224 => 0
  | .sha3_256 => 1
  | .sha3_384 => 2
  | .sha3_512 => 3
  | .shake128 => 4
  | .shake256 => 5

/-- The variant of a code; 6 and 7 name none (R10, R78). -/
def variantOfCode (v : BitVec 3) : Option Variant :=
  match v.toNat with
  | 0 => some .sha3_224
  | 1 => some .sha3_256
  | 2 => some .sha3_384
  | 3 => some .sha3_512
  | 4 => some .shake128
  | 5 => some .shake256
  | _ => none

/-- The suffix s of a variant: the number in its name (R10). -/
def variantSuffix : Variant → Nat
  | .sha3_224 => 224
  | .sha3_256 => 256
  | .sha3_384 => 384
  | .sha3_512 => 512
  | .shake128 => 128
  | .shake256 => 256

/-- RATE(v) = (1600 - 2s)/8 bytes (R10). -/
def variantRate (v : Variant) : Nat := (1600 - 2 * variantSuffix v) / 8

/-- Whether the variant is a SHAKE, VAR >= 4 (R10, R29). -/
def isShake (v : Variant) : Bool := 4 ≤ variantCode v

/-- The pad byte: 0x06 for SHA-3, 0x1F for SHAKE (R10, R29). -/
def padByte (v : Variant) : Byte := if isShake v then 0x1F else 0x06

/-- DigestLen: s/8 bytes for a SHA-3 variant, none for a SHAKE (R101). -/
def digestLen (v : Variant) : Option Nat := if isShake v then none else some (variantSuffix v / 8)

/-- The rotation constants T[y][x], row by row (R92). -/
def rhoTable : Five (Five Nat) :=
  ⟨⟨0, 1, 62, 28, 27⟩,
   ⟨36, 44, 6, 55, 20⟩,
   ⟨3, 10, 43, 25, 39⟩,
   ⟨41, 45, 15, 21, 8⟩,
   ⟨18, 2, 61, 56, 14⟩⟩

/-- The table of R96 as it stands there, two columns of twelve: the row of `i` holds RC[i] and RC[12 + i]. -/
def roundConstantRows : List (Lane × Lane) := [
  (0x0000000000000001, 0x000000008000808B),
  (0x0000000000008082, 0x800000000000008B),
  (0x800000000000808A, 0x8000000000008089),
  (0x8000000080008000, 0x8000000000008003),
  (0x000000000000808B, 0x8000000000008002),
  (0x0000000080000001, 0x8000000000000080),
  (0x8000000080008081, 0x000000000000800A),
  (0x8000000000008009, 0x800000008000000A),
  (0x000000000000008A, 0x8000000080008081),
  (0x0000000000000088, 0x8000000000008080),
  (0x0000000080008009, 0x0000000080000001),
  (0x000000008000000A, 0x8000000080008008)]

/-- The round constants in the order of the rounds: the first column, and then the second (R96). -/
def roundConstants : List Lane := roundConstantRows.map (·.1) ++ roundConstantRows.map (·.2)

/-- The code of an error (R154). -/
def errorCode : ErrorName → Nat
  | .illegalOpcode => 1
  | .illegalField => 2
  | .spongeState => 3
  | .range => 4
  | .noInverse => 5
  | .busyViolation => 6

/-- ERRCODE as it reads: 0 when no error is recorded (R41, R154). -/
def errCodeValue : Option ErrorName → Nat
  | none => 0
  | some e => errorCode e

/-- The constant that ID reads as, "KEC1" (R39). -/
def idWord : Word := 0x4B454331

/-- SCRATCH_BYTES (R8). -/
def scratchBytes : Nat := 4096

end Sys2Proof.Machine
end

