-- ==== Sys2Proof/Machine/ModArith.lean ====
section
/-! DEFINITION. Arithmetic modulo m on unbounded integers (R12, R116), and the helpers inv_m and sqrt_p. -/

namespace Sys2Proof.Machine

/-- The mathematical remainder in [0, m), also of a negative integer (R12). -/
def modInt (v : Int) (m : Nat) : Nat := (v % (m : Int)).toNat

/-- bitlen(k): the position of k's highest 1 bit plus one, and 0 for 0 (R141). -/
def bitLength (k : Nat) : Nat := if k = 0 then 0 else k.log2 + 1

/-- The exponent's base-256 digits from the one below place `i` down to the lowest, most significant first. -/
def powModFrom (m b e : Nat) : Nat → Nat → Nat
  | 0, acc => acc
  | i + 1, acc => powModFrom m b e i (acc ^ 256 * b ^ (e / 256 ^ i % 256) % m)

/-- b^e mod m, with x^0 = 1 for every x (R124): Horner's rule on the exponent's base-256 digits. -/
def powMod (m b e : Nat) : Nat := powModFrom m (b % m) e ((bitLength e + 7) / 8) (1 % m)

/-- inv_m(a), none where a mod m = 0 (R118): a^(m-2) mod m, which the rule allows because m is prime. -/
def invMod (m a : Nat) : Option Nat := if a % m = 0 then none else some (powMod m a (m - 2))

/-- sqrt_p(v, L), none where v has no square root (R119). -/
def sqrtP (v : Nat) (lsb : Bool) : Option Nat :=
  let w := v % primeP
  let c := powMod primeP w ((primeP + 1) / 4)
  let c := if c % 2 = lsb.toNat then c else (primeP - c) % primeP
  if c * c % primeP = w then some c else none

end Sys2Proof.Machine
end

