-- ==== Sys2Proof/Machine/Curve.lean ====
section
/-! DEFINITION. The Edwards curve x^2 + y^2 = 1 + d*x^2*y^2 over F_p: its points as pairs of coordinates, and the
helpers EdAdd and EdMulRaw (44_edwards.md). -/

namespace Sys2Proof.Machine

/-- An affine pair (x, y), on the curve or not. -/
abbrev Point := Nat × Nat

/-- O = (0, 1) (R133). -/
def neutral : Point := (0, 1)

/-- G = (Gx, Gy) (R134). -/
def generator : Point := (genX, genY)

/-- OnCurve(x, y) (R132). -/
def onCurve (q : Point) : Bool :=
  let x : Int := q.1
  let y : Int := q.2
  modInt (x * x + y * y - 1 - curveD * x * x * y * y) primeP = 0

/-- EdAdd, none where a denominator is 0 mod p (R139). -/
def edAdd (a b : Point) : Option Point :=
  let x1 : Int := a.1
  let y1 : Int := a.2
  let x2 : Int := b.1
  let y2 : Int := b.2
  let dd : Int := curveD * x1 * x2 * y1 * y2
  match invMod primeP (modInt (1 + dd) primeP), invMod primeP (modInt (1 - dd) primeP) with
  | some i1, some i2 => some (modInt ((x1 * y2 + y1 * x2) * i1) primeP, modInt ((y1 * y2 - x1 * x2) * i2) primeP)
  | _, _ => none

/-- The loop of EdMulRaw over the bits of `k` below place `i`, from the highest (R141). -/
def edMulFrom (a : Point) (k : Nat) : Nat → Point → Option Point
  | 0, q => some q
  | i + 1, q =>
    match edAdd q q with
    | none => none
    | some q2 =>
      match (if k.testBit i then edAdd q2 a else some q2) with
      | none => none
      | some q3 => edMulFrom a k i q3

/-- EdMulRaw(P, k): left-to-right double-and-add, `k` as given (R141). -/
def edMulRaw (a : Point) (k : Nat) : Option Point := edMulFrom a k (bitLength k) neutral

/-- What PDEC finds for a y coordinate and a requested parity (R151). -/
inductive Decompressed where
  /-- The curve equation has no root x. -/
  | noRoot
  /-- The point fails the r-torsion check. -/
  | notTorsion
  /-- The point is in the prime-order subgroup. -/
  | point (q : Point)
  deriving DecidableEq, Repr

/-- PDEC's computation of the point; none where an inverse of 0 was needed, which R151 and R152 say never happens
(log entry 11). -/
def decompress (v : Nat) (lsb : Bool) : Option Decompressed :=
  let y := v % primeP
  let num := modInt (1 - (y : Int) * y) primeP
  let den := modInt (1 - curveD * (y : Int) * y) primeP
  match invMod primeP den with
  | none => none
  | some i =>
    match sqrtP (num * i % primeP) lsb with
    | none => some .noRoot
    | some x =>
      match edMulRaw (x, y) orderR with
      | none => none
      | some t => if t = neutral then some (.point (x, y)) else some .notTorsion

end Sys2Proof.Machine
end

