-- ==== Sys2Proof/Machine/Ops.lean ====
section
/-! DEFINITION. The named operations over the scratchpad and the registers, and the taking of a command error. -/

namespace Sys2Proof.Machine

/-! ### The scratchpad (20_memory.md, R15) -/

/-- The byte at an address, none where nothing has written it (R53). -/
def readByte : Memory → Nat → Option Byte
  | [], _ => none
  | c :: rest, a => if c.1 = a then some c.2 else readByte rest a

/-- Write one byte, the addresses kept strictly rising (R52). -/
def writeByte : Memory → Nat → Byte → Memory
  | [], a, b => [(a, b)]
  | c :: rest, a, b =>
    if a < c.1 then (a, b) :: c :: rest
    else if a = c.1 then (a, b) :: rest
    else c :: writeByte rest a b

/-- MemRead(addr, n): the n bytes from `a` on, none where one of them was never written (R15, R53). -/
def readBytes (m : Memory) (a : Nat) : Nat → Option (List Byte)
  | 0 => some []
  | n + 1 =>
    match readByte m a, readBytes m (a + 1) n with
    | some b, some bs => some (b :: bs)
    | _, _ => none

/-- MemWrite(addr, n, bs): the bytes in order from `a` on (R15). -/
def writeBytes (m : Memory) (a : Nat) : List Byte → Memory
  | [] => m
  | b :: bs => writeBytes (writeByte m a b) (a + 1) bs

/-- The canonical form: addresses strictly rising, all below 4096 (R51). No entry can equal what an unlisted address
reads as, since that has no value. -/
def Memory.wf (m : Memory) : Bool :=
  decide (m.Pairwise fun c c' => c.1 < c'.1) && m.all fun c => c.1 < scratchBytes

/-- BE(bs): the big-endian value of a byte sequence, 0 of the empty one (R15). -/
def beValue (bs : List Byte) : Nat := bs.foldl (fun v b => 256 * v + b.toNat) 0

/-- The low `n` bytes of `v`, the most significant first. -/
def beBytes (v : Nat) : Nat → List Byte
  | 0 => []
  | n + 1 => BitVec.ofNat 8 (v / 256 ^ n) :: beBytes v n

/-- BE32(v) (R15). -/
def be32 (v : Elem) : List Byte := beBytes v.toNat 32

/-- The range check fails: addr + n > 4096 (R86). -/
def outOfRange (addr n : Nat) : Bool := scratchBytes < addr + n

/-! ### Element registers (R14, R32, R47) -/

/-- E[i] as an unbounded integer (R12, R115). -/
def State.readE (s : State) (i : EReg) : Nat := s.e[i].toNat

/-- E[i] <- v, the low 256 bits of v (R14). -/
def State.writeE (s : State) (i : EReg) (v : Nat) : State := { s with e := s.e.set i (BitVec.ofNat 256 v) }

/-- Word `w` of an element register: bits 32w+31 down to 32w (R47). -/
def elemWord (x : Elem) (w : Nat) : Word := x.extractLsb' (32 * w) 32

/-- Replace word `w` of an element register and nothing else of it (R47). -/
def setElemWord (x : Elem) (w : Nat) (v : Word) : Elem :=
  (x &&& ~~~((0xFFFFFFFF : Elem) <<< (32 * w))) ||| (v.setWidth 256 <<< (32 * w))

/-! ### Taking a command error (60_exceptions.md) -/

/-- Why a command's rule does not end in a new state. -/
inductive Stop where
  /-- `raise X`: the command ends with an error, which the engine records (R16). -/
  | raise (x : ErrorName)
  /-- The model faults (R53). -/
  | fault (f : Fault)
  deriving DecidableEq, Repr

/-- RecordError(X, info): only the first error since ERR was last cleared is kept (R158). -/
def State.recordError (x : ErrorName) (info : Word) (s : State) : State :=
  if s.err then s else { s with err := true, errCode := some x, errInfo := info }

/-- The end of a command: all of its writes, or none of them and the error recorded with CMD_L (R83, R158, R159). -/
def State.commit (s : State) (r : Except Stop State) : Host.Outcome State Fault Refusal :=
  match r with
  | .ok t => .next t
  | .error (.raise x) => .next (s.recordError x s.cmdL)
  | .error (.fault f) => .fault f

/-- The end of every engine step: BUSY cleared and DONE set (R83). -/
def State.finishStep (s : State) : State := { s with busy := false, done := true }

/-- The acceptance of a command word: the latch loaded, BUSY set, DONE cleared (R36, R55). -/
def State.acceptCommand (s : State) (w : Word) : State :=
  { s with cmdL := w, addrL := s.argAddr, lenL := s.argLen, busy := true, done := false }

/-- Clearing the error, the return from it: ERR, ERRCODE and ERRINFO become 0 (R41, R162). -/
def State.clearError (s : State) : State := { s with err := false, errCode := none, errInfo := 0 }

/-! ### Reset and the interrupt -/

/-- Hard reset: every piece of state at its reset value, the command in flight discarded (R172). The model's own fields
go on (log entry 12). -/
def State.hardReset (s : State) : State :=
  { State.reset with schedule := s.schedule, readData := s.readData, draws := s.draws }

/-- SoftReset: as a hard reset, the scratchpad kept (R173). -/
def State.softReset (s : State) : State := { s.hardReset with scratch := s.scratch }

/-- irq, a level function of the state (R49, R164). -/
def State.irq (s : State) : Bool := (s.done && s.ieDone) || (s.err && s.ieErr)

end Sys2Proof.Machine
end

