-- ==== Sys2Proof/Machine/Flags.lean ====
section
/-! DEFINITION. Every write of a result flag, and the words that show the registers (10_state.md, 20_memory.md R56). -/

namespace Sys2Proof.Machine

/-- A field result: E[rd] <- v and FLAGS.Z <- (v = 0) (R117). -/
def State.writeField (s : State) (rd : EReg) (v : Nat) : State :=
  { s.writeE rd v with flags := { s.flags with z := decide (v = 0) } }

/-- FLAGS.ISO <- whether the point written is O (R137). -/
def State.setIso (s : State) (q : Point) : State := { s with flags := { s.flags with iso := decide (q = neutral) } }

/-- FLAGS.EQ (R148). -/
def State.setEq (s : State) (b : Bool) : State := { s with flags := { s.flags with eq := b } }

/-- FLAGS.ONC (R149). -/
def State.setOnc (s : State) (b : Bool) : State := { s with flags := { s.flags with onc := b } }

/-- FLAGS.XLSB (R150). -/
def State.setXlsb (s : State) (b : Bool) : State := { s with flags := { s.flags with xlsb := b } }

/-- FLAGS.NOROOT (R128, R151). -/
def State.setNoroot (s : State) (b : Bool) : State := { s with flags := { s.flags with noroot := b } }

/-- FLAGS.NOTORS (R151). -/
def State.setNotors (s : State) (b : Bool) : State := { s with flags := { s.flags with notors := b } }

/-- FLAGS as it reads (R35, R56). -/
def flagsWord (f : Flags) : Word :=
  BitVec.ofNat 32 (f.z.toNat + 2 * f.eq.toNat + 4 * f.onc.toNat + 8 * f.xlsb.toNat + 16 * f.noroot.toNat +
    32 * f.notors.toNat + 64 * f.iso.toNat)

/-- CTRL as it reads (R40, R56). -/
def State.ctrlWord (s : State) : Word := BitVec.ofNat 32 (2 * s.ieDone.toNat + 4 * s.ieErr.toNat)

/-- STATUS as it reads (R41, R56). -/
def State.statusWord (s : State) : Word :=
  BitVec.ofNat 32 (s.busy.toNat + 2 * s.done.toNat + 4 * s.err.toNat + 2 ^ 8 * errCodeValue s.errCode)

/-- SPONGE as it reads (R44, R56). -/
def spongeWord (k : Sponge) : Word :=
  BitVec.ofNat 32 (variantCode k.variant + 2 ^ 4 * phaseCode k.phase + 2 ^ 8 * k.rate.toNat + 2 ^ 16 * k.pos.toNat)

end Sys2Proof.Machine
end

