-- ==== Sys2Proof/Machine/Operands.lean ====
section
/-! DEFINITION. The operand forms: point registers as pairs of element registers (R33, R73, R136), and the byte range
of a memory command (R43, R74). -/

namespace Sys2Proof.Machine

/-- The element register that holds the x coordinate of Pk: E[2k] (R33). -/
def xReg (k : PReg) : EReg := ⟨2 * k.val, by omega⟩

/-- The element register that holds the y coordinate of Pk: E[2k+1] (R33). -/
def yReg (k : PReg) : EReg := ⟨2 * k.val + 1, by omega⟩

/-- ReadP(k): both coordinates reduced mod p (R136). -/
def State.readPoint (s : State) (k : PReg) : Point := (s.readE (xReg k) % primeP, s.readE (yReg k) % primeP)

/-- WriteP(k, (x, y)): both halves, and FLAGS.ISO (R136, R137). -/
def State.writePoint (s : State) (k : PReg) (q : Point) : State :=
  ((s.writeE (xReg k) q.1).writeE (yReg k) q.2).setIso q

/-- The start of a memory command's byte range, ADDR_L as an integer (R74). -/
def State.addr (s : State) : Nat := s.addrL.toNat

/-- The byte count of a memory command, LEN_L as an integer (R74). -/
def State.len (s : State) : Nat := s.lenL.toNat

end Sys2Proof.Machine
end

