-- ==== Sys2Proof/Machine/Control.lean ====
section
/-! DEFINITION. The control command NOP (40_common.md). -/

namespace Sys2Proof.Machine

/-- NOP: nothing (R90). -/
def execNop (s : State) : Host.Outcome State Fault Refusal := s.commit (.ok s)

end Sys2Proof.Machine
end

