-- ==== Sys2Proof/Machine/Edwards.lean ====
section
/-! DEFINITION. The Edwards point commands (44_edwards.md). Point operands are read reduced mod p and never checked to
be on the curve (R136). -/

namespace Sys2Proof.Machine

/-- A point result, or NoInverse where a denominator was 0 (R139, R141). -/
def State.writePointOrNoInverse (s : State) (pd : PReg) (r : Option Point) : Except Stop State :=
  match r with
  | none => .error (.raise .noInverse)
  | some q => .ok (s.writePoint pd q)

/-- PNEUT (R143). -/
def execPneut (pd : PReg) (s : State) : Host.Outcome State Fault Refusal := s.commit (.ok (s.writePoint pd neutral))

/-- PGEN (R144). -/
def execPgen (pd : PReg) (s : State) : Host.Outcome State Fault Refusal := s.commit (.ok (s.writePoint pd generator))

/-- PADD (R145). -/
def execPadd (pd pa pb : PReg) (s : State) : Host.Outcome State Fault Refusal :=
  s.commit (s.writePointOrNoInverse pd (edAdd (s.readPoint pa) (s.readPoint pb)))

/-- PNEG: (-x mod p, y) (R146). -/
def execPneg (pd pa : PReg) (s : State) : Host.Outcome State Fault Refusal :=
  s.commit (.ok (s.writePoint pd (modInt (0 - ((s.readPoint pa).1 : Int)) primeP, (s.readPoint pa).2)))

/-- PMUL: the scalar reduced mod r (R147). -/
def execPmul (pd pa : PReg) (rs2 : EReg) (s : State) : Host.Outcome State Fault Refusal :=
  s.commit (s.writePointOrNoInverse pd (edMulRaw (s.readPoint pa) (s.readE rs2 % orderR)))

/-- PEQ: both reduced coordinates (R148). -/
def execPeq (pa pb : PReg) (s : State) : Host.Outcome State Fault Refusal :=
  s.commit (.ok (s.setEq (decide (s.readPoint pa = s.readPoint pb))))

/-- PONC (R149). -/
def execPonc (pa : PReg) (s : State) : Host.Outcome State Fault Refusal :=
  s.commit (.ok (s.setOnc (onCurve (s.readPoint pa))))

/-- PCOMP: E[rd] <- y and XLSB <- the parity of the old x; Z is not written (R150). -/
def execPcomp (rd : EReg) (pa : PReg) (s : State) : Host.Outcome State Fault Refusal :=
  s.commit (.ok ((s.writeE rd (s.readPoint pa).2).setXlsb (decide ((s.readPoint pa).1 % 2 = 1))))

/-- PDEC: the point, or O with NOROOT or NOTORS saying why (R151). -/
def execPdec (pd : PReg) (rs1 : EReg) (lsb : Bool) (s : State) : Host.Outcome State Fault Refusal :=
  s.commit (match decompress (s.readE rs1) lsb with
    | none => .error (.raise .noInverse)
    | some .noRoot => .ok (((s.writePoint pd neutral).setNoroot true).setNotors false)
    | some .notTorsion => .ok (((s.writePoint pd neutral).setNoroot false).setNotors true)
    | some (.point q) => .ok (((s.writePoint pd q).setNoroot false).setNotors false))

end Sys2Proof.Machine
end

