-- ==== Sys2Proof/Machine/Field.lean ====
section
/-! DEFINITION. The field and scalar arithmetic commands, and the scratchpad transfers (43_field.md). Sources are read
raw, results reduced into [0, m) (R115). -/

namespace Sys2Proof.Machine

/-- FADD (R121). -/
def execFadd (m : Modulus) (rd rs1 rs2 : EReg) (s : State) : Host.Outcome State Fault Refusal :=
  s.commit (.ok (s.writeField rd ((s.readE rs1 + s.readE rs2) % modulusValue m)))

/-- FSUB (R122). -/
def execFsub (m : Modulus) (rd rs1 rs2 : EReg) (s : State) : Host.Outcome State Fault Refusal :=
  s.commit (.ok (s.writeField rd (modInt ((s.readE rs1 : Int) - s.readE rs2) (modulusValue m))))

/-- FMUL (R123). -/
def execFmul (m : Modulus) (rd rs1 rs2 : EReg) (s : State) : Host.Outcome State Fault Refusal :=
  s.commit (.ok (s.writeField rd (s.readE rs1 * s.readE rs2 % modulusValue m)))

/-- FPOW: the exponent is the whole raw value (R124). -/
def execFpow (m : Modulus) (rd rs1 rs2 : EReg) (s : State) : Host.Outcome State Fault Refusal :=
  s.commit (.ok (s.writeField rd (powMod (modulusValue m) (s.readE rs1) (s.readE rs2))))

/-- FNEG (R125). -/
def execFneg (m : Modulus) (rd rs1 : EReg) (s : State) : Host.Outcome State Fault Refusal :=
  s.commit (.ok (s.writeField rd (modInt (0 - (s.readE rs1 : Int)) (modulusValue m))))

/-- FINV: NoInverse for a multiple of m (R126). -/
def execFinv (m : Modulus) (rd rs1 : EReg) (s : State) : Host.Outcome State Fault Refusal :=
  s.commit (match invMod (modulusValue m) (s.readE rs1) with
    | none => .error (.raise .noInverse)
    | some v => .ok (s.writeField rd v))

/-- FRED (R127). -/
def execFred (m : Modulus) (rd rs1 : EReg) (s : State) : Host.Outcome State Fault Refusal :=
  s.commit (.ok (s.writeField rd (s.readE rs1 % modulusValue m)))

/-- FSQRT: a missing root is the flag NOROOT (R128). -/
def execFsqrt (rd rs1 : EReg) (lsb : Bool) (s : State) : Host.Outcome State Fault Refusal :=
  s.commit (match sqrtP (s.readE rs1) lsb with
    | none => .ok (s.setNoroot true)
    | some c => .ok ((s.writeField rd c).setNoroot false))

/-- FMOV: a raw copy (R129). -/
def execFmov (rd rs1 : EReg) (s : State) : Host.Outcome State Fault Refusal :=
  s.commit (.ok (s.writeField rd (s.readE rs1)))

/-- LDBE: at most 64 bytes, big-endian, reduced (R130). -/
def execLdbe (m : Modulus) (rd : EReg) (s : State) : Host.Outcome State Fault Refusal :=
  s.commit (
    if 64 < s.len then .error (.raise .range)
    else if outOfRange s.addr s.len then .error (.raise .range)
    else match readBytes s.scratch s.addr s.len with
      | none => .error (.fault .unwrittenRead)
      | some bs => .ok (s.writeField rd (beValue bs % modulusValue m)))

/-- STBE: 32 big-endian bytes of the raw value, LEN_L not used (R131). -/
def execStbe (rs1 : EReg) (s : State) : Host.Outcome State Fault Refusal :=
  s.commit (
    if outOfRange s.addr 32 then .error (.raise .range)
    else .ok { s with scratch := writeBytes s.scratch s.addr (be32 s.e[rs1]) })

end Sys2Proof.Machine
end

