-- ==== Sys2Proof/Machine/KeccakF.lean ====
section
/-! DEFINITION. The Keccak state's byte view (10_state.md) and the permutation Keccak-f[1600] (41_keccak.md). -/

namespace Sys2Proof.Machine

/-- Place `i` of five, the index taken mod 5 (41_keccak.md: "All indices x and y are taken mod 5"). -/
def Five.get {α : Type} (r : Five α) (i : Nat) : α :=
  match i % 5 with
  | 0 => r.x0
  | 1 => r.x1
  | 2 => r.x2
  | 3 => r.x3
  | _ => r.x4

/-- Five things by a rule on their place. -/
def Five.tabulate {α : Type} (f : Nat → α) : Five α := ⟨f 0, f 1, f 2, f 3, f 4⟩

/-- Five things with the one at place `i` (mod 5) changed. -/
def Five.modify {α : Type} (r : Five α) (i : Nat) (f : α → α) : Five α :=
  Five.tabulate fun j => if j = i % 5 then f (r.get j) else r.get j

/-- Lane A[y][x] (R14, R25). -/
def lane (a : KeccakState) (y x : Nat) : Lane := (a.get y).get x

/-- The Keccak state whose lane A[y][x] is `f y x`. -/
def tabulateLanes (f : Nat → Nat → Lane) : KeccakState := Five.tabulate fun y => Five.tabulate fun x => f y x

/-- StateByte(i), for i in 0..199 (R26); 0 past the end, which no reachable state asks for (log entry 9). -/
def stateByte (a : KeccakState) (i : Nat) : Byte :=
  if i < 200 then (lane a (i / 8 / 5) (i / 8 % 5)).extractLsb' (8 * (i % 8)) 8 else 0

/-- XorByte(i, b), for i in 0..199 (R26); nothing past the end, which no reachable state asks for (log entry 9). -/
def xorByte (a : KeccakState) (i : Nat) (b : Byte) : KeccakState :=
  if i < 200 then
    a.modify (i / 8 / 5) fun row => row.modify (i / 8 % 5) fun l => l ^^^ (b.setWidth 64 <<< (8 * (i % 8)))
  else a

/-- Theta's column parity C[x] (R91). -/
def columnParity (a : KeccakState) (x : Nat) : Lane :=
  lane a 0 x ^^^ lane a 1 x ^^^ lane a 2 x ^^^ lane a 3 x ^^^ lane a 4 x

/-- Theta (R91). -/
def theta (a : KeccakState) : KeccakState :=
  let c := Five.tabulate (columnParity a)
  let d := Five.tabulate fun x => c.get (x + 4) ^^^ (c.get (x + 1)).rotateLeft 1
  tabulateLanes fun y x => lane a y x ^^^ d.get x

/-- Rho (R92). -/
def rho (a : KeccakState) : KeccakState :=
  tabulateLanes fun y x => (lane a y x).rotateLeft ((rhoTable.get y).get x)

/-- Pi: A'[y][x] = A[x][(x + 3y) mod 5] (R93). -/
def piStep (a : KeccakState) : KeccakState := tabulateLanes fun y x => lane a x (x + 3 * y)

/-- Chi (R94). -/
def chi (a : KeccakState) : KeccakState :=
  tabulateLanes fun y x => lane a y x ^^^ (~~~ lane a y (x + 1) &&& lane a y (x + 2))

/-- Iota with the round's constant (R95). -/
def iota (rc : Lane) (a : KeccakState) : KeccakState :=
  { a with x0 := { a.x0 with x0 := a.x0.x0 ^^^ rc } }

/-- One round: theta, rho, pi, chi, iota in that order (R97). -/
def keccakRound (a : KeccakState) (rc : Lane) : KeccakState := iota rc (chi (piStep (rho (theta a))))

/-- KeccakF: the 24 rounds (R97). -/
def keccakF (a : KeccakState) : KeccakState := roundConstants.foldl keccakRound a

end Sys2Proof.Machine
end

