-- ==== Sys2Proof/Machine/Sponge.lean ====
section
/-! DEFINITION. The sponge controller and its commands (42_sponge.md), and KPERM (41_keccak.md). -/

namespace Sys2Proof.Machine

/-! ### The shared steps -/

/-- Absorb one byte; permute as soon as the block is full (R102). -/
def absorbByte (k : Sponge) (b : Byte) : Sponge :=
  let a := xorByte k.a k.pos.toNat b
  if k.pos + 1 = k.rate then { k with a := keccakF a, pos := 0 } else { k with a := a, pos := k.pos + 1 }

/-- Absorb bytes in order (R106). -/
def absorb (k : Sponge) (bs : List Byte) : Sponge := bs.foldl absorbByte k

/-- PadFinal: the pad byte at POS, 0x80 at RATE - 1, permute, and squeeze from POS = 0 (R103). -/
def padFinal (k : Sponge) : Sponge :=
  let a := xorByte (xorByte k.a k.pos.toNat (padByte k.variant)) (k.rate.toNat - 1) 0x80
  { k with a := keccakF a, pos := 0, phase := .squeezing }

/-- Emit one byte; permute as soon as the block is used up (R104). -/
def squeezeByte (k : Sponge) : Byte × Sponge :=
  (stateByte k.a k.pos.toNat,
    if k.pos + 1 = k.rate then { k with a := keccakF k.a, pos := 0 } else { k with pos := k.pos + 1 })

/-- Emit n bytes in order (R108). -/
def squeeze : Nat → Sponge → List Byte × Sponge
  | 0, k => ([], k)
  | n + 1, k =>
    let r := squeezeByte k
    let rest := squeeze n r.2
    (r.1 :: rest.1, rest.2)

/-- The sponge of a variant at the start of its first block (R105). -/
def startSponge (v : Variant) : Sponge := ⟨zeroKeccak, .absorbing, v, BitVec.ofNat 8 (variantRate v), 0⟩

/-! ### The commands -/

/-- KINIT V; a V of 6 or 7 is IllegalField (R105). -/
def execKinit (v : BitVec 3) (s : State) : Host.Outcome State Fault Refusal :=
  s.commit (match variantOfCode v with
    | none => .error (.raise .illegalField)
    | some x => .ok { s with sponge := startSponge x })

/-- KABS (R106). -/
def execKabs (s : State) : Host.Outcome State Fault Refusal :=
  s.commit (
    if s.sponge.phase ≠ .absorbing then .error (.raise .spongeState)
    else if outOfRange s.addr s.len then .error (.raise .range)
    else match readBytes s.scratch s.addr s.len with
      | none => .error (.fault .unwrittenRead)
      | some bs => .ok { s with sponge := absorb s.sponge bs })

/-- KFIN (R107). -/
def execKfin (s : State) : Host.Outcome State Fault Refusal :=
  s.commit (
    if s.sponge.phase ≠ .absorbing then .error (.raise .spongeState)
    else .ok { s with sponge := padFinal s.sponge })

/-- KSQZ (R108). -/
def execKsqz (s : State) : Host.Outcome State Fault Refusal :=
  s.commit (
    if s.sponge.phase ≠ .squeezing then .error (.raise .spongeState)
    else if outOfRange s.addr s.len then .error (.raise .range)
    else
      let out := squeeze s.len s.sponge
      .ok { s with sponge := out.2, scratch := writeBytes s.scratch s.addr out.1 })

/-- KDIG: the count is DigestLen(VAR), LEN_L is not used (R109). -/
def execKdig (s : State) : Host.Outcome State Fault Refusal :=
  s.commit (
    if s.sponge.phase ≠ .absorbing then .error (.raise .spongeState)
    else match digestLen s.sponge.variant with
      | none => .error (.raise .spongeState)
      | some n =>
        if outOfRange s.addr n then .error (.raise .range)
        else
          let out := squeeze n (padFinal s.sponge)
          .ok { s with sponge := out.2, scratch := writeBytes s.scratch s.addr out.1 })

/-- KPERM, legal in every phase (R99). -/
def execKperm (s : State) : Host.Outcome State Fault Refusal :=
  s.commit (.ok { s with sponge := { s.sponge with a := keccakF s.sponge.a, pos := 0 } })

/-- KREL, legal in every phase (R110). -/
def execKrel (s : State) : Host.Outcome State Fault Refusal :=
  s.commit (.ok { s with sponge := resetSponge })

end Sys2Proof.Machine
end

