-- ==== Sys2Proof/Machine/Dispatch.lean ====
section
/-! DEFINITION. The dispatch of a decoded command to its meaning, one arm per constructor. -/

namespace Sys2Proof.Machine

/-- The command's own effect on the state, or its error recorded; the engine step adds BUSY and DONE (R83). -/
def exec (i : Instr) (s : State) : Host.Outcome State Fault Refusal :=
  match i with
  | .nop => Sys2Proof.Machine.execNop s
  | .kinit v => Sys2Proof.Machine.execKinit v s
  | .kabs => Sys2Proof.Machine.execKabs s
  | .kfin => Sys2Proof.Machine.execKfin s
  | .ksqz => Sys2Proof.Machine.execKsqz s
  | .kdig => Sys2Proof.Machine.execKdig s
  | .kperm => Sys2Proof.Machine.execKperm s
  | .krel => Sys2Proof.Machine.execKrel s
  | .fadd m rd rs1 rs2 => Sys2Proof.Machine.execFadd m rd rs1 rs2 s
  | .fsub m rd rs1 rs2 => Sys2Proof.Machine.execFsub m rd rs1 rs2 s
  | .fmul m rd rs1 rs2 => Sys2Proof.Machine.execFmul m rd rs1 rs2 s
  | .fpow m rd rs1 rs2 => Sys2Proof.Machine.execFpow m rd rs1 rs2 s
  | .fneg m rd rs1 => Sys2Proof.Machine.execFneg m rd rs1 s
  | .finv m rd rs1 => Sys2Proof.Machine.execFinv m rd rs1 s
  | .fred m rd rs1 => Sys2Proof.Machine.execFred m rd rs1 s
  | .fsqrt rd rs1 lsb => Sys2Proof.Machine.execFsqrt rd rs1 lsb s
  | .fmov rd rs1 => Sys2Proof.Machine.execFmov rd rs1 s
  | .ldbe m rd => Sys2Proof.Machine.execLdbe m rd s
  | .stbe rs1 => Sys2Proof.Machine.execStbe rs1 s
  | .pneut pd => Sys2Proof.Machine.execPneut pd s
  | .pgen pd => Sys2Proof.Machine.execPgen pd s
  | .padd pd pa pb => Sys2Proof.Machine.execPadd pd pa pb s
  | .pneg pd pa => Sys2Proof.Machine.execPneg pd pa s
  | .pmul pd pa rs2 => Sys2Proof.Machine.execPmul pd pa rs2 s
  | .peq pa pb => Sys2Proof.Machine.execPeq pa pb s
  | .ponc pa => Sys2Proof.Machine.execPonc pa s
  | .pcomp rd pa => Sys2Proof.Machine.execPcomp rd pa s
  | .pdec pd rs1 lsb => Sys2Proof.Machine.execPdec pd rs1 lsb s

end Sys2Proof.Machine
end

