-- ==== Sys2Proof/Config.lean ====
section
/-! DEFINITION. What the spec leaves open for one machine or one read: constants without a body, so that no proof
can see their value (R9; 93_implementation_defined.md part 1a). -/

namespace Sys2Proof

/-- The `n`-th free draw: the word that a host read of a Volatile offset returns while STATUS.BUSY = 1
(R56, R177). Log entry 5. -/
opaque Config.freeRead (n : Nat) : Word

/-- WINDOW_BASE: where the register window sits in the host's own address space (R9, R63). Log entry 13. -/
opaque Config.windowBase : Nat

/-- The host address of a window offset: every offset of the spec is relative to WINDOW_BASE (R63). -/
def Config.hostAddress (off : Offset) : Nat := Config.windowBase + off.toNat

end Sys2Proof
end

