-- ==== Sys2Proof/Machine/HostBus.lean ====
section
/-! DEFINITION. Host transactions on the register window (10_state.md section 7; 20_memory.md section 2). -/

namespace Sys2Proof.Machine

/-- What stands at an offset of the register window (R38). -/
inductive WindowReg where
  | id
  | ctrl
  | status
  | cmd
  | argAddr
  | argLen
  | flags
  | sponge
  | errInfo
  /-- KSTATE[k] (R46). -/
  | kstate (k : Nat)
  /-- Word w of E[n] (R47). -/
  | ereg (n : EReg) (w : Nat)
  /-- The scratchpad word from byte a on (R58). -/
  | scratch (a : Nat)
  /-- Reads as 0 and ignores writes (R48). -/
  | reserved
  deriving DecidableEq, Repr

/-- The window map, for an aligned offset (R38). -/
def windowReg (off : Nat) : WindowReg :=
  if off = 0x0000 then .id
  else if off = 0x0004 then .ctrl
  else if off = 0x0008 then .status
  else if off = 0x000C then .cmd
  else if off = 0x0010 then .argAddr
  else if off = 0x0014 then .argLen
  else if off = 0x0018 then .flags
  else if off = 0x001C then .sponge
  else if off = 0x0020 then .errInfo
  else if 0x0100 ≤ off ∧ off ≤ 0x01C4 then .kstate ((off - 0x0100) / 4)
  else if 0x0200 ≤ off ∧ off ≤ 0x03FC then .ereg (Fin.ofNat 16 ((off - 0x0200) / 32)) ((off - 0x0200) % 32 / 4)
  else if 0x1000 ≤ off ∧ off ≤ 0x1FFC then .scratch (off - 0x1000)
  else .reserved

/-- Protected(off): refused while BUSY = 1 (R55, R178). -/
def isProtected : WindowReg → Bool
  | .cmd => true
  | .argAddr => true
  | .argLen => true
  | .ereg _ _ => true
  | .scratch _ => true
  | _ => false

/-- Volatile(off): unspecified to read while BUSY = 1 (R56, R177). -/
def isVolatile : WindowReg → Bool
  | .flags => true
  | .sponge => true
  | .kstate _ => true
  | .ereg _ _ => true
  | .scratch _ => true
  | _ => false

/-- The word of four bytes, the first in bits 7:0 (R46, R58). -/
def leWord (b0 b1 b2 b3 : Byte) : Word :=
  BitVec.ofNat 32 (b0.toNat + 2 ^ 8 * b1.toNat + 2 ^ 16 * b2.toNat + 2 ^ 24 * b3.toNat)

/-- The four bytes of a word, bits 7:0 first (R55, R58). -/
def wordBytes (v : Word) : List Byte :=
  [v.extractLsb' 0 8, v.extractLsb' 8 8, v.extractLsb' 16 8, v.extractLsb' 24 8]

/-- KSTATE[k] (R46). -/
def kstateWord (a : KeccakState) (k : Nat) : Word :=
  leWord (stateByte a (4 * k)) (stateByte a (4 * k + 1)) (stateByte a (4 * k + 2)) (stateByte a (4 * k + 3))

/-- The scratchpad word at byte `a`, none where one of its bytes was never written (R53, R58). -/
def scratchWord (m : Memory) (a : Nat) : Option Word :=
  match readByte m a, readByte m (a + 1), readByte m (a + 2), readByte m (a + 3) with
  | some b0, some b1, some b2, some b3 => some (leWord b0 b1 b2 b3)
  | _, _, _, _ => none

/-- What a window register reads as, none where the read is an unwritten read (R56). -/
def State.windowWord (s : State) : WindowReg → Option Word
  | .id => some idWord
  | .ctrl => some s.ctrlWord
  | .status => some s.statusWord
  | .cmd => some 0
  | .argAddr => some (s.argAddr.setWidth 32)
  | .argLen => some (s.argLen.setWidth 32)
  | .flags => some (flagsWord s.flags)
  | .sponge => some (spongeWord s.sponge)
  | .errInfo => some s.errInfo
  | .kstate k => some (kstateWord s.sponge.a k)
  | .ereg n w => some (elemWord s.e[n] w)
  | .scratch a => scratchWord s.scratch a
  | .reserved => some 0

/-- HostRead(off): a fault where misaligned (R54) or where a byte was never written (R53), a free value for a Volatile
offset while BUSY = 1, else the register; no spec state changes (R56, R62). -/
def hostRead (off : Offset) (s : State) : Host.Outcome State Fault Refusal :=
  if off.toNat % 4 ≠ 0 then .fault .misaligned
  else if isVolatile (windowReg off.toNat) && s.busy then
    .next { s with readData := some (Config.freeRead s.draws), draws := s.draws + 1 }
  else match s.windowWord (windowReg off.toNat) with
    | none => .fault .unwrittenRead
    | some v => .next { s with readData := some v }

/-- A write to CTRL: a soft reset, or the two enables (R40). -/
def State.writeCtrl (s : State) (v : Word) : State :=
  if v.getLsbD 0 then s.softReset else { s with ieDone := v.getLsbD 1, ieErr := v.getLsbD 2 }

/-- A write to STATUS: write-1-to-clear (R41). -/
def State.writeStatus (s : State) (v : Word) : State :=
  let s := if v.getLsbD 1 then { s with done := false } else s
  if v.getLsbD 2 then s.clearError else s

/-- A write to a window register that is not refused (R55). -/
def State.writeWindow (s : State) (g : WindowReg) (v : Word) : State :=
  match g with
  | .ctrl => s.writeCtrl v
  | .status => s.writeStatus v
  | .cmd => if s.err then s else s.acceptCommand v
  | .argAddr => { s with argAddr := v.setWidth 13 }
  | .argLen => { s with argLen := v.setWidth 13 }
  | .ereg n w => { s with e := s.e.set n (setElemWord s.e[n] w v) }
  | .scratch a => { s with scratch := writeBytes s.scratch a (wordBytes v) }
  | .id => s
  | .flags => s
  | .sponge => s
  | .errInfo => s
  | .kstate _ => s
  | .reserved => s

/-- HostWrite(off, v): a fault where misaligned (R54), a BusyViolation for a Protected offset while BUSY = 1, else the
write (R55). -/
def hostWrite (off : Offset) (v : Word) (s : State) : Host.Outcome State Fault Refusal :=
  if off.toNat % 4 ≠ 0 then .fault .misaligned
  else if isProtected (windowReg off.toNat) && s.busy then .next (s.recordError .busyViolation (off.setWidth 32))
  else .next (s.writeWindow (windowReg off.toNat) v)

end Sys2Proof.Machine
end

