-- ==== Sys2Proof/Machine/Engine.lean ====
section
/-! DEFINITION. The engine step (40_common.md R83) and one turn of the interleaving (20_memory.md R65). -/

namespace Sys2Proof.Machine

/-- A decode error as the error it is recorded as (R154). -/
def decodeErrorName : DecodeError → ErrorName
  | .illegalOpcode => .illegalOpcode
  | .illegalField => .illegalField

/-- EngineStep: decode the latched word, run its rule or record the error, then BUSY <- 0 and DONE <- 1 (R83). -/
def engineStep (s : State) : Host.Outcome State Fault Refusal :=
  match decode s.cmdL with
  | .error x => .next (s.recordError (decodeErrorName x) s.cmdL).finishStep
  | .ok i =>
    match exec i s with
    | .next t => .next t.finishStep
    | .fault f => .fault f
    | .refused r => .refused r

/-- The engine's turn: its step where one is enabled, nothing where it is idle (R83, R171). -/
def engineTurn (s : State) : Host.Outcome State Fault Refusal := if s.busy then engineStep s else .next s

/-- One turn of the interleaving of host transactions and engine steps (R65), the schedule already moved on. -/
def takeTurn (t : Turn) (s : State) : Host.Outcome State Fault Refusal :=
  match t with
  | .hostRead off => hostRead off s
  | .hostWrite off v => hostWrite off v s
  | .engine => engineTurn s
  | .hardReset => .next s.hardReset

/-- The next turn of the schedule; with none left the engine takes its turn (log entry 3). -/
def nextTurn (s : State) : Host.Outcome State Fault Refusal :=
  match s.schedule with
  | [] => engineTurn s
  | t :: rest => takeTurn t { s with schedule := rest }

/-- The state in which the command word `w` has just been accepted and the engine moves next (R55, R83). -/
def State.withCommand (s : State) (w : Word) : State :=
  { s.acceptCommand w with schedule := .engine :: s.schedule }

end Sys2Proof.Machine
end

