-- ==== Sys2Proof/Machine/Step.lean ====
section
/-! DEFINITION. One step of the machine: one turn of the interleaving of host and engine. -/

namespace Sys2Proof.Machine

/-- One step (R65). -/
def step (s : State) : Host.Outcome State Fault Refusal := nextTurn s

/-- The state whose very next step runs the command word `w`: the engine fetches nothing (R34), so the word is placed
as an accepted CMD write places it (log entry 8). -/
def State.withFetchWord (s : State) (nbits w : Nat) : State := s.withCommand (BitVec.ofNat 32 (w % 2 ^ nbits))

end Sys2Proof.Machine
end

