-- ==== Sys2Proof/Safety.lean ====
section
/-! DEFINITION. The terms that the claims use: the invariant of the machine, which commands may write which state, how an
engine step completes, and the generator of the round constants. -/

namespace Sys2Proof.Machine

/-! ### The invariant -/

/-- The sponge registers agree: RATE = POS = 0 in UNINIT (R30, R31), else RATE = RATE(VAR) (R30) and POS < RATE (R31). -/
abbrev spongeOk (k : Sponge) : Prop :=
  (k.phase = .uninit → k.rate = 0 ∧ k.pos = 0) ∧
  (k.phase ≠ .uninit → k.rate.toNat = variantRate k.variant ∧ k.pos.toNat < k.rate.toNat)

/-- The error registers agree: ERRCODE and ERRINFO are 0 while ERR = 0, ERRCODE names an error while ERR = 1 (R41, R45,
R158), and the information of a BusyViolation is a 13-bit offset (R45). -/
abbrev errorOk (s : State) : Prop :=
  (s.err = false → s.errCode = none ∧ s.errInfo = 0) ∧ (s.err = true → s.errCode ≠ none) ∧
  (s.errCode = some .busyViolation → s.errInfo.toNat < 2 ^ 13)

/-- What holds of every state a run from reset reaches. -/
abbrev State.inv (s : State) : Prop := spongeOk s.sponge ∧ Memory.wf s.scratch = true ∧ errorOk s

/-! ### The end of an engine step -/

/-- The outcome of an engine step whose command answered `o`: BUSY cleared and DONE set on the next state (R83). -/
def completed (o : Host.Outcome State Fault Refusal) : Host.Outcome State Fault Refusal :=
  match o with
  | .next t => .next { t with busy := false, done := true }
  | .fault f => .fault f
  | .refused r => .refused r

/-! ### Who may write what -/

/-- The commands that may write the Keccak state and the sponge registers (R25, R28 to R31). -/
def writesSponge : Instr → Bool
  | .kinit _ | .kabs | .kfin | .ksqz | .kdig | .kperm | .krel => true
  | _ => false

/-- The commands that may write the scratchpad (R52). -/
def writesScratch : Instr → Bool
  | .ksqz | .kdig | .stbe _ => true
  | _ => false

/-- The commands that may write FLAGS.Z (R35, R117). -/
def writesZ : Instr → Bool
  | .fadd _ _ _ _ | .fsub _ _ _ _ | .fmul _ _ _ _ | .fpow _ _ _ _ | .fneg _ _ _ | .finv _ _ _ | .fred _ _ _
  | .fsqrt _ _ _ | .fmov _ _ | .ldbe _ _ => true
  | _ => false

/-- The commands that may write FLAGS.ISO, those that write a point register (R35, R137). -/
def writesIso : Instr → Bool
  | .pneut _ | .pgen _ | .padd _ _ _ | .pneg _ _ | .pmul _ _ _ | .pdec _ _ _ => true
  | _ => false

/-- The commands that may write FLAGS.EQ (R35). -/
def writesEq : Instr → Bool
  | .peq _ _ => true
  | _ => false

/-- The commands that may write FLAGS.ONC (R35). -/
def writesOnc : Instr → Bool
  | .ponc _ => true
  | _ => false

/-- The commands that may write FLAGS.XLSB (R35). -/
def writesXlsb : Instr → Bool
  | .pcomp _ _ => true
  | _ => false

/-- The commands that may write FLAGS.NOROOT (R35). -/
def writesNoroot : Instr → Bool
  | .fsqrt _ _ _ | .pdec _ _ _ => true
  | _ => false

/-- The commands that may write FLAGS.NOTORS (R35). -/
def writesNotors : Instr → Bool
  | .pdec _ _ _ => true
  | _ => false

/-- The element register a command may write, apart from a point destination (R32). -/
def elementDest : Instr → Option EReg
  | .fadd _ rd _ _ | .fsub _ rd _ _ | .fmul _ rd _ _ | .fpow _ rd _ _ | .fneg _ rd _ | .finv _ rd _ | .fred _ rd _
  | .fsqrt rd _ _ | .fmov rd _ | .ldbe _ rd | .pcomp rd _ => some rd
  | _ => none

/-- The point register a command may write (R33). -/
def pointDest : Instr → Option PReg
  | .pneut pd | .pgen pd | .padd pd _ _ | .pneg pd _ | .pmul pd _ _ | .pdec pd _ _ => some pd
  | _ => none

/-! ### The round constants' generator (R96) -/

/-- One step of the LFSR of rc(t): a 0 shifted in, the ninth bit fed back into places 0, 4, 5 and 6 (R96). -/
def lfsrStep (r : List Bool) : List Bool :=
  let out := r.getD 7 false
  let r := false :: r.take 7
  [xor (r.getD 0 false) out, r.getD 1 false, r.getD 2 false, r.getD 3 false,
    xor (r.getD 4 false) out, xor (r.getD 5 false) out, xor (r.getD 6 false) out, r.getD 7 false]

/-- The LFSR after `n` steps from (1, 0, 0, 0, 0, 0, 0, 0) (R96). -/
def lfsr : Nat → List Bool
  | 0 => [true, false, false, false, false, false, false, false]
  | n + 1 => lfsrStep (lfsr n)

/-- rc(t) (R96). -/
def rcBit (t : Nat) : Bool := (lfsr (t % 255)).getD 0 false

/-- The round constant of round `i`: bit 2^j - 1 is rc(j + 7 i) for j = 0 to 6, every other bit 0 (R96). -/
def rcWord (i : Nat) : Lane :=
  ((List.range 7).map fun j => BitVec.ofNat 64 ((rcBit (j + 7 * i)).toNat * 2 ^ (2 ^ j - 1))).foldl (· ||| ·) 0

end Sys2Proof.Machine
end

