-- ==== Sys2Proof/Certificates/Slice0/Obligations.lean ====
section
/-! DEFINITION. The statements for the provers. Each docstring names the rules it formalises; OBLIGATIONS.json lists them.
A next state is written as a record update of the old one, so each statement also says that nothing else changes.
A statement about a host transaction or about the engine's turn takes it from the model's `schedule` (log entry 3), and one
about a hard reset from its turn there (log entry 12). -/

open Sys2Proof Sys2Proof.Machine

/-! ### Encoding (30_encoding.md) -/

/-- Decoding the word of a well-formed command gives the command, with every operand at every value (R70 to R78). -/
def Obligations.DecodeOfEncode : Prop :=
  ∀ i : Instr, i.wellFormed = true → decode (encode i) = .ok i

/-- A word that decodes is the word of the command it decodes to, which is well formed: no bit is dropped (R76 to R78). -/
def Obligations.EncodeOfDecode : Prop :=
  ∀ (w : Word) (i : Instr), decode w = .ok i → i.wellFormed = true ∧ encode i = w

/-- R79: the unassigned opcodes are exactly those that raise IllegalOpcode, and no other word is a NOP. -/
def Obligations.ReservedOpcodesIllegal : Prop :=
  (∀ w : Word, decode w = .error .illegalOpcode ↔
    let op := w.toNat % 256
    (0x01 ≤ op ∧ op ≤ 0x0F) ∨ (0x17 ≤ op ∧ op ≤ 0x1F) ∨ (0x29 ≤ op ∧ op ≤ 0x2F) ∨ (0x32 ≤ op ∧ op ≤ 0x3F) ∨ 0x49 ≤ op) ∧
  ∀ w : Word, decode w = .ok .nop ↔ w = 0

/-- R78: a word with an assigned opcode that is no well-formed command's word raises IllegalField, and no other does. -/
def Obligations.IllegalFieldIffNoCommandWord : Prop :=
  ∀ w : Word, decode w = .error .illegalField ↔
    decode w ≠ .error .illegalOpcode ∧ ∀ i : Instr, i.wellFormed = true → encode i ≠ w

/-- Words written out in R77, R80 and the instruction rules decode to the commands they stand for. -/
def Obligations.ExampleWordsDecode : Prop :=
  decode 0x00000000 = .ok .nop ∧
  decode 0x01000010 = .ok (.kinit 1) ∧
  decode 0x00000012 = .ok .kfin ∧
  decode 0x00000015 = .ok .kperm ∧
  decode 0x00021320 = .ok (.fadd .p 3 1 2) ∧
  decode 0x00165422 = .ok (.fmul .r 4 5 6) ∧
  decode 0x00201227 = .ok (.fsqrt 2 1 true) ∧
  decode 0x00100C30 = .ok (.ldbe .r 12) ∧
  decode 0x00006031 = .ok (.stbe 6) ∧
  decode 0x000C0244 = .ok (.pmul 2 0 12) ∧
  decode 0x00021045 = .ok (.peq 1 2) ∧
  decode 0x00006348 = .ok (.pdec 3 6 false)

/-! ### The engine step and the interleaving (R65, R83) -/

/-- R83: while BUSY = 1 the engine's turn (an engine turn of the schedule, or any turn once the schedule is used up) runs
the command that the latched word decodes to, then clears BUSY and sets DONE; while BUSY = 0 it does nothing. -/
def Obligations.StepRunsLatchedCommand : Prop :=
  (∀ (s : State) (i : Instr) (rest : List Turn), s.busy = true → decode s.cmdL = .ok i →
    (s.schedule = .engine :: rest → step s = completed (exec i { s with schedule := rest })) ∧
    (s.schedule = [] → step s = completed (exec i s))) ∧
  ∀ (s : State) (rest : List Turn), s.busy = false →
    (s.schedule = .engine :: rest → step s = .next { s with schedule := rest }) ∧
    (s.schedule = [] → step s = .next s)

/-- R78, R83, R158: a latched word that is no command has no effect but the error recorded with the word; BUSY is cleared
and DONE set. -/
def Obligations.StepRecordsDecodeError : Prop :=
  ∀ (s : State) (rest : List Turn) (x : DecodeError), s.busy = true → s.schedule = .engine :: rest →
    decode s.cmdL = .error x →
    (s.err = true → step s = .next { s with schedule := rest, busy := false, done := true }) ∧
    (s.err = false → x = .illegalOpcode → step s = .next { s with
      schedule := rest, busy := false, done := true, err := true, errCode := some .illegalOpcode, errInfo := s.cmdL }) ∧
    (s.err = false → x = .illegalField → step s = .next { s with
      schedule := rest, busy := false, done := true, err := true, errCode := some .illegalField, errInfo := s.cmdL })

/-- R55, R83: a command word written to CMD of an idle block with ERR = 0, and then the engine's turn, is the command run
on the latched ARG_ADDR and ARG_LEN. -/
def Obligations.CommandWriteThenEngineTurn : Prop :=
  ∀ (s : State) (rest : List Turn) (w : Word) (i : Instr), s.busy = false → s.err = false → decode w = .ok i →
    s.schedule = .hostWrite 0x000C w :: .engine :: rest →
    ∃ t, step s = .next t ∧ step t = completed (exec i { s with
      schedule := rest, cmdL := w, addrL := s.argAddr, lenL := s.argLen, busy := true, done := false })

/-- R65 (2), R182: once the turns of the schedule are used up, one more step leaves no command in flight, unless a model
fault stopped the run. -/
def Obligations.EveryCommandCompletes : Prop :=
  ∀ s t : State, Sys2Proof.core.run (s.schedule.length + 1) s = .next t → t.busy = false

/-! ### Host transactions (20_memory.md) -/

/-- R55, R161, R178: a write to CMD is accepted when BUSY = 0 and ERR = 0, dropped when BUSY = 0 and ERR = 1, and a
BusyViolation when BUSY = 1. -/
def Obligations.CommandWriteOutcomes : Prop :=
  ∀ (s : State) (rest : List Turn) (w : Word), s.schedule = .hostWrite 0x000C w :: rest →
    (s.busy = false → s.err = false → step s = .next { s with
      schedule := rest, cmdL := w, addrL := s.argAddr, lenL := s.argLen, busy := true, done := false }) ∧
    (s.busy = false → s.err = true → step s = .next { s with schedule := rest }) ∧
    (s.busy = true → s.err = false → step s = .next { s with
      schedule := rest, err := true, errCode := some .busyViolation, errInfo := 0x0000000C }) ∧
    (s.busy = true → s.err = true → step s = .next { s with schedule := rest })

/-- R55, R178: while BUSY = 1 a write to a Protected offset is discarded, and a BusyViolation is recorded with the offset
if no error is recorded yet. -/
def Obligations.ProtectedWritesRefusedWhileBusy : Prop :=
  ∀ (s : State) (rest : List Turn) (off : Offset) (v : Word), s.busy = true → s.schedule = .hostWrite off v :: rest →
    off.toNat % 4 = 0 →
    (off.toNat = 0x000C ∨ off.toNat = 0x0010 ∨ off.toNat = 0x0014 ∨ (0x0200 ≤ off.toNat ∧ off.toNat ≤ 0x03FC) ∨
      (0x1000 ≤ off.toNat ∧ off.toNat ≤ 0x1FFC)) →
    (s.err = false → step s = .next { s with
      schedule := rest, err := true, errCode := some .busyViolation, errInfo := off.setWidth 32 }) ∧
    (s.err = true → step s = .next { s with schedule := rest })

/-- R53, R54: the two model faults. A host transaction at a misaligned offset; a host read of a scratchpad word, a KABS or
an LDBE, that has passed its other checks and whose bytes include one that nothing has written. -/
def Obligations.ModelFaults : Prop :=
  (∀ (s : State) (rest : List Turn) (off : Offset) (v : Word), off.toNat % 4 ≠ 0 →
    (s.schedule = .hostRead off :: rest → step s = .fault .misaligned) ∧
    (s.schedule = .hostWrite off v :: rest → step s = .fault .misaligned)) ∧
  (∀ (s : State) (rest : List Turn) (off : Offset) (k : Nat), s.busy = false → off.toNat % 4 = 0 → 0x1000 ≤ off.toNat →
    k < 4 → readByte s.scratch (off.toNat - 0x1000 + k) = none → s.schedule = .hostRead off :: rest →
    step s = .fault .unwrittenRead) ∧
  (∀ (s : State) (k : Nat), s.addrL.toNat + s.lenL.toNat ≤ 4096 → k < s.lenL.toNat →
    readByte s.scratch (s.addrL.toNat + k) = none →
    (s.sponge.phase = .absorbing → exec .kabs s = .fault .unwrittenRead) ∧
    ∀ (m : Modulus) (rd : EReg), s.lenL.toNat ≤ 64 → exec (.ldbe m rd) s = .fault .unwrittenRead)

/-- R56, R62: a host read changes no state of the spec; only the model's read channel and its count of free values move
(log entries 4 and 5). -/
def Obligations.HostReadsKeepSpecState : Prop :=
  ∀ (s t : State) (rest : List Turn) (off : Offset), s.schedule = .hostRead off :: rest → step s = .next t →
    t = { s with schedule := rest, readData := t.readData, draws := t.draws }

/-- R56, R177: while BUSY = 1 an aligned read of a Volatile offset returns a free value. The free value is the model's
`Config.freeRead` at its counter (log entry 5); nothing is claimed of what it is. That it is returned also for a SCRATCH word
with a byte never written, and not the fault of R53, is the model's choice (log entry 6). -/
def Obligations.VolatileReadsWhileBusyAreFree : Prop :=
  ∀ (s : State) (rest : List Turn) (off : Offset), s.busy = true → s.schedule = .hostRead off :: rest →
    off.toNat % 4 = 0 →
    (off.toNat = 0x0018 ∨ off.toNat = 0x001C ∨ (0x0100 ≤ off.toNat ∧ off.toNat ≤ 0x01C4) ∨
      (0x0200 ≤ off.toNat ∧ off.toNat ≤ 0x03FC) ∨ 0x1000 ≤ off.toNat) →
    step s = .next { s with schedule := rest, readData := some (Config.freeRead s.draws), draws := s.draws + 1 }

/-- R52, R55, R58: an idle write of a scratchpad word puts its four bytes, lowest address in bits 7:0, and changes no other
byte; an idle read of four written bytes returns the word they make. -/
def Obligations.ScratchWindowIsLittleEndian : Prop :=
  ∀ (s : State) (rest : List Turn) (k : Nat) (v : Word), k < 1024 → s.busy = false →
    (s.schedule = .hostWrite (BitVec.ofNat 13 (0x1000 + 4 * k)) v :: rest →
      ∃ m, step s = .next { s with schedule := rest, scratch := m } ∧
        ∀ a, readByte m a = if a / 4 = k then some (v.extractLsb' (8 * (a % 4)) 8) else readByte s.scratch a) ∧
    (s.schedule = .hostRead (BitVec.ofNat 13 (0x1000 + 4 * k)) :: rest →
      (∀ j < 4, readByte s.scratch (4 * k + j) = some (v.extractLsb' (8 * j) 8)) →
      step s = .next { s with schedule := rest, readData := some v })

/-- R47: word w of E[n] stands at offset 0x0200 + 32n + 4w; an idle write replaces exactly bits 32w+31 to 32w of E[n], and
an idle read returns them. -/
def Obligations.ElementWindow : Prop :=
  ∀ (s : State) (rest : List Turn) (n : EReg) (w : Nat) (v : Word), w < 8 → s.busy = false →
    (s.schedule = .hostWrite (BitVec.ofNat 13 (0x0200 + 32 * n.val + 4 * w)) v :: rest →
      ∃ x : Elem, step s = .next { s with schedule := rest, e := s.e.set n x } ∧
        ∀ i < 256, x.getLsbD i = if i / 32 = w then v.getLsbD (i % 32) else s.e[n].getLsbD i) ∧
    (s.schedule = .hostRead (BitVec.ofNat 13 (0x0200 + 32 * n.val + 4 * w)) :: rest →
      ∃ x : Word, step s = .next { s with schedule := rest, readData := some x } ∧
        ∀ i < 32, x.getLsbD i = s.e[n].getLsbD (32 * w + i))

/-- R46, R27: an idle read of KSTATE[k] returns state bytes 4k to 4k+3, byte 4k in bits 7:0, which are the low or the high
half of lane k div 2; a write to it is ignored. -/
def Obligations.KeccakStateWindow : Prop :=
  ∀ (s : State) (rest : List Turn) (k : Nat) (v : Word), k < 50 →
    (s.busy = false → s.schedule = .hostRead (BitVec.ofNat 13 (0x0100 + 4 * k)) :: rest →
      ∃ x : Word, step s = .next { s with schedule := rest, readData := some x } ∧
        x.toNat = (stateByte s.sponge.a (4 * k)).toNat + 2 ^ 8 * (stateByte s.sponge.a (4 * k + 1)).toNat +
          2 ^ 16 * (stateByte s.sponge.a (4 * k + 2)).toNat + 2 ^ 24 * (stateByte s.sponge.a (4 * k + 3)).toNat ∧
        x = (lane s.sponge.a (k / 2 / 5) (k / 2 % 5)).extractLsb' (32 * (k % 2)) 32) ∧
    (s.schedule = .hostWrite (BitVec.ofNat 13 (0x0100 + 4 * k)) v :: rest → step s = .next { s with schedule := rest })

/-- R48: a reserved offset reads as 0, and a write to it or to a read-only register is ignored and records no error. -/
def Obligations.ReservedOffsetsReadZeroIgnoreWrites : Prop :=
  ∀ (s : State) (rest : List Turn) (off : Offset) (v : Word), off.toNat % 4 = 0 →
    ((0x0024 ≤ off.toNat ∧ off.toNat ≤ 0x00FC) ∨ (0x01C8 ≤ off.toNat ∧ off.toNat ≤ 0x01FC) ∨
        (0x0400 ≤ off.toNat ∧ off.toNat ≤ 0x0FFC) →
      s.schedule = .hostRead off :: rest → step s = .next { s with schedule := rest, readData := some 0 }) ∧
    ((0x0024 ≤ off.toNat ∧ off.toNat ≤ 0x00FC) ∨ (0x01C8 ≤ off.toNat ∧ off.toNat ≤ 0x01FC) ∨
        (0x0400 ≤ off.toNat ∧ off.toNat ≤ 0x0FFC) ∨ off.toNat = 0x0000 ∨ off.toNat = 0x0018 ∨ off.toNat = 0x001C ∨
        off.toNat = 0x0020 ∨ (0x0100 ≤ off.toNat ∧ off.toNat ≤ 0x01C4) →
      s.schedule = .hostWrite off v :: rest → step s = .next { s with schedule := rest })

/-- R41, R162: a write to STATUS clears DONE where bit 1 is 1, and ERR, ERRCODE and ERRINFO where bit 2 is 1, busy or not;
nothing else changes. -/
def Obligations.StatusWriteOneToClear : Prop :=
  ∀ (s : State) (rest : List Turn) (v : Word), s.schedule = .hostWrite 0x0008 v :: rest →
    step s = .next { s with
      schedule := rest
      done := s.done && !v.getLsbD 1
      err := s.err && !v.getLsbD 2
      errCode := if v.getLsbD 2 then none else s.errCode
      errInfo := if v.getLsbD 2 then 0 else s.errInfo }

/-- R40: a write to CTRL with bit 0 set performs a soft reset, and one with bit 0 clear sets IE_DONE and IE_ERR to bits 1
and 2, busy or not; CTRL reads back as those two bits, and as 0 after reset. -/
def Obligations.ControlRegister : Prop :=
  (∀ (s : State) (rest : List Turn) (v : Word), s.schedule = .hostWrite 0x0004 v :: rest →
    (v.getLsbD 0 = true → step s = .next (State.softReset { s with schedule := rest })) ∧
    (v.getLsbD 0 = false → step s = .next { s with schedule := rest, ieDone := v.getLsbD 1, ieErr := v.getLsbD 2 })) ∧
  (∀ (s : State) (rest : List Turn), s.schedule = .hostRead 0x0004 :: rest →
    ∃ x : Word, step s = .next { s with schedule := rest, readData := some x } ∧
      ∀ i < 32, x.getLsbD i = ((i == 1 && s.ieDone) || (i == 2 && s.ieErr))) ∧
  State.reset.ieDone = false ∧ State.reset.ieErr = false

/-- R43, R55: an idle write to ARG_ADDR or ARG_LEN keeps bits 12:0, and a read returns them with bits 31:13 zero. -/
def Obligations.ArgumentRegisters : Prop :=
  ∀ (s : State) (rest : List Turn) (v : Word),
    (s.busy = false → s.schedule = .hostWrite 0x0010 v :: rest →
      step s = .next { s with schedule := rest, argAddr := v.extractLsb' 0 13 }) ∧
    (s.busy = false → s.schedule = .hostWrite 0x0014 v :: rest →
      step s = .next { s with schedule := rest, argLen := v.extractLsb' 0 13 }) ∧
    (s.schedule = .hostRead 0x0010 :: rest →
      step s = .next { s with schedule := rest, readData := some (BitVec.ofNat 32 s.argAddr.toNat) }) ∧
    (s.schedule = .hostRead 0x0014 :: rest →
      step s = .next { s with schedule := rest, readData := some (BitVec.ofNat 32 s.argLen.toNat) })

/-- R28, R29, R35, R39, R41, R44, R45, R56, R154: what ID, STATUS, CMD, FLAGS, SPONGE and ERRINFO read as, bit field by bit
field, with the codes of the errors, the phases and the variants; FLAGS and SPONGE while idle. -/
def Obligations.RegisterReads : Prop :=
  ∀ (s : State) (rest : List Turn),
    (s.schedule = .hostRead 0x0000 :: rest → step s = .next { s with schedule := rest, readData := some 0x4B454331 }) ∧
    (s.schedule = .hostRead 0x000C :: rest → step s = .next { s with schedule := rest, readData := some 0 }) ∧
    (s.schedule = .hostRead 0x0020 :: rest → step s = .next { s with schedule := rest, readData := some s.errInfo }) ∧
    (s.schedule = .hostRead 0x0008 :: rest →
      ∃ x : Word, step s = .next { s with schedule := rest, readData := some x } ∧
        x.getLsbD 0 = s.busy ∧ x.getLsbD 1 = s.done ∧ x.getLsbD 2 = s.err ∧ x.extractLsb' 3 5 = 0 ∧
        (x.extractLsb' 8 4).toNat = (match s.errCode with
          | none => 0
          | some .illegalOpcode => 1
          | some .illegalField => 2
          | some .spongeState => 3
          | some .range => 4
          | some .noInverse => 5
          | some .busyViolation => 6) ∧ x.extractLsb' 12 20 = 0) ∧
    (s.busy = false → s.schedule = .hostRead 0x0018 :: rest →
      ∃ x : Word, step s = .next { s with schedule := rest, readData := some x } ∧
        x.getLsbD 0 = s.flags.z ∧ x.getLsbD 1 = s.flags.eq ∧ x.getLsbD 2 = s.flags.onc ∧ x.getLsbD 3 = s.flags.xlsb ∧
        x.getLsbD 4 = s.flags.noroot ∧ x.getLsbD 5 = s.flags.notors ∧ x.getLsbD 6 = s.flags.iso ∧
        x.extractLsb' 7 25 = 0) ∧
    (s.busy = false → s.schedule = .hostRead 0x001C :: rest →
      ∃ x : Word, step s = .next { s with schedule := rest, readData := some x } ∧
        (x.extractLsb' 0 3).toNat = (match s.sponge.variant with
          | .sha3_224 => 0
          | .sha3_256 => 1
          | .sha3_384 => 2
          | .sha3_512 => 3
          | .shake128 => 4
          | .shake256 => 5) ∧ x.getLsbD 3 = false ∧
        (x.extractLsb' 4 2).toNat = (match s.sponge.phase with
          | .uninit => 0
          | .absorbing => 1
          | .squeezing => 2) ∧ x.extractLsb' 6 2 = 0 ∧
        x.extractLsb' 8 8 = s.sponge.rate ∧ x.extractLsb' 16 8 = s.sponge.pos ∧ x.extractLsb' 24 8 = 0)

/-! ### Reset and the interrupt -/

/-- R50, R172, R173: a hard reset and a soft reset, taken busy or not and with an error or not, leave every register 0, the
phase UNINIT, no command in flight and irq 0; a soft reset keeps the scratchpad, a hard reset leaves it with no byte that has
a value (R53). -/
def Obligations.ResetValues : Prop :=
  ∀ (s : State) (rest : List Turn) (v : Word),
    (s.schedule = .hardReset :: rest ∨ (s.schedule = .hostWrite 0x0004 v :: rest ∧ v.getLsbD 0 = true)) →
    ∃ t, step s = .next t ∧
      (∀ y < 5, ∀ x < 5, lane t.sponge.a y x = 0) ∧ t.sponge.phase = .uninit ∧ variantCode t.sponge.variant = 0 ∧
      t.sponge.rate = 0 ∧ t.sponge.pos = 0 ∧ (∀ n : EReg, t.e[n] = 0) ∧
      t.flags = ⟨false, false, false, false, false, false, false⟩ ∧ t.ieDone = false ∧ t.ieErr = false ∧
      t.busy = false ∧ t.done = false ∧ t.err = false ∧ t.errCode = none ∧ t.errInfo = 0 ∧
      t.argAddr = 0 ∧ t.argLen = 0 ∧ t.irq = false ∧ t.schedule = rest ∧
      (s.schedule = .hardReset :: rest → ∀ a, readByte t.scratch a = none) ∧
      (s.schedule = .hostWrite 0x0004 v :: rest → t.scratch = s.scratch)

/-- R49, R164: irq is the OR of the two enabled pending sources, and 0 after reset. -/
def Obligations.InterruptIsLevel : Prop :=
  (∀ s : State, s.irq = true ↔ (s.done = true ∧ s.ieDone = true) ∨ (s.err = true ∧ s.ieErr = true)) ∧
  State.reset.irq = false

/-! ### Errors (60_exceptions.md) -/

/-- R83, R158, R159: a command that answers a next state either leaves ERR, ERRCODE and ERRINFO as they were, or records
the first error with the command word and changes nothing else. -/
def Obligations.FailingCommandsArePrecise : Prop :=
  ∀ (i : Instr) (s t : State), exec i s = .next t →
    (t.err = s.err ∧ t.errCode = s.errCode ∧ t.errInfo = s.errInfo) ∨
    (s.err = false ∧ ∃ x, t = { s with err := true, errCode := some x, errInfo := s.cmdL })

/-- R155: the error that a well-formed command records is one its rule names. PDEC, which records none, is left to
`PdecResult`. -/
def Obligations.CommandsRaiseOnlyTheirErrors : Prop :=
  ∀ (i : Instr) (s t : State) (x : ErrorName), i.wellFormed = true → (∀ pd rs1 lsb, i ≠ .pdec pd rs1 lsb) →
    s.err = false → s.errCode = none → exec i s = .next t → t.errCode = some x →
    (x = .spongeState ∧ (i = .kabs ∨ i = .kfin ∨ i = .ksqz ∨ i = .kdig)) ∨
    (x = .range ∧ (i = .kabs ∨ i = .ksqz ∨ i = .kdig ∨ (∃ m rd, i = .ldbe m rd) ∨ ∃ rs1, i = .stbe rs1)) ∨
    (x = .noInverse ∧ ((∃ m rd rs1, i = .finv m rd rs1) ∨ (∃ pd pa pb, i = .padd pd pa pb) ∨
      ∃ pd pa rs2, i = .pmul pd pa rs2))

/-- R100: each sponge command's phase condition, and the phase it leaves; a command in a phase that does not allow it, and
KDIG on a SHAKE variant, records SpongeState and has no effect. -/
def Obligations.SpongePhaseTable : Prop :=
  ∀ s : State,
    (∀ v : BitVec 3, v.toNat ≤ 5 → ∃ t, exec (.kinit v) s = .next t ∧ t.sponge.phase = .absorbing) ∧
    (s.sponge.phase ≠ .absorbing → exec .kabs s = .next (s.recordError .spongeState s.cmdL) ∧
      exec .kfin s = .next (s.recordError .spongeState s.cmdL) ∧
      exec .kdig s = .next (s.recordError .spongeState s.cmdL)) ∧
    (s.sponge.phase ≠ .squeezing → exec .ksqz s = .next (s.recordError .spongeState s.cmdL)) ∧
    (4 ≤ variantCode s.sponge.variant → exec .kdig s = .next (s.recordError .spongeState s.cmdL)) ∧
    (∀ t, s.sponge.phase = .absorbing → exec .kabs s = .next t → t.sponge.phase = .absorbing) ∧
    (s.sponge.phase = .absorbing → ∃ t, exec .kfin s = .next t ∧ t.sponge.phase = .squeezing) ∧
    (∀ t, s.sponge.phase = .squeezing → exec .ksqz s = .next t → t.sponge.phase = .squeezing) ∧
    (s.sponge.phase = .absorbing → variantCode s.sponge.variant ≤ 3 → s.addrL.toNat + 64 ≤ 4096 →
      ∃ t, exec .kdig s = .next t ∧ t.sponge.phase = .squeezing) ∧
    (∃ t, exec .kperm s = .next t ∧ t.sponge.phase = s.sponge.phase) ∧
    ∃ t, exec .krel s = .next t ∧ t.sponge.phase = .uninit

/-- R85, R86, R130, R131: a memory command whose phase allows it and whose range passes byte 4095, or an LDBE of more than
64 bytes, records Range and has no effect. -/
def Obligations.RangeRefusals : Prop :=
  ∀ s : State,
    (s.sponge.phase = .absorbing → 4096 < s.addrL.toNat + s.lenL.toNat →
      exec .kabs s = .next (s.recordError .range s.cmdL)) ∧
    (s.sponge.phase = .squeezing → 4096 < s.addrL.toNat + s.lenL.toNat →
      exec .ksqz s = .next (s.recordError .range s.cmdL)) ∧
    (∀ n, s.sponge.phase = .absorbing → digestLen s.sponge.variant = some n → 4096 < s.addrL.toNat + n →
      exec .kdig s = .next (s.recordError .range s.cmdL)) ∧
    (∀ (m : Modulus) (rd : EReg), (64 < s.lenL.toNat ∨ 4096 < s.addrL.toNat + s.lenL.toNat) →
      exec (.ldbe m rd) s = .next (s.recordError .range s.cmdL)) ∧
    ∀ rs1 : EReg, 4096 < s.addrL.toNat + 32 → exec (.stbe rs1) s = .next (s.recordError .range s.cmdL)

/-- R158, R162, R163: while ERR = 1, only a write of 1 to STATUS bit 2, a soft reset or a hard reset changes ERR, ERRCODE or
ERRINFO: no step records a second error. -/
def Obligations.FirstErrorIsKept : Prop :=
  ∀ s t : State, s.err = true → step s = .next t →
    (∀ v rest, s.schedule = .hostWrite 0x0008 v :: rest → v.getLsbD 2 = false) →
    (∀ v rest, s.schedule = .hostWrite 0x0004 v :: rest → v.getLsbD 0 = false) →
    (∀ rest, s.schedule ≠ .hardReset :: rest) →
    t.err = true ∧ t.errCode = s.errCode ∧ t.errInfo = s.errInfo

/-! ### Invariants and frames of all commands -/

/-- Every step keeps the invariant: RATE and POS agree with PHASE and VAR (R30, R31), the scratchpad keeps its canonical
form, and the error registers agree (R41, R45, R158). -/
def Obligations.StepKeepsInvariant : Prop :=
  ∀ s t : State, s.inv → step s = .next t → t.inv

/-- The reset state meets the invariant (R50). -/
def Obligations.ResetMeetsInvariant : Prop := State.reset.inv

/-- R25, R32, R33, R43, R52: a command writes the sponge only where it is a sponge command, the scratchpad only where it is
KSQZ, KDIG or STBE, no element register but its destination, and never CTRL, the ARG registers, the command latch, BUSY,
DONE or the model's own fields. -/
def Obligations.CommandsTouchOnlyTheirUnits : Prop :=
  ∀ (i : Instr) (s t : State), exec i s = .next t →
    (writesSponge i = false → t.sponge = s.sponge) ∧ (writesScratch i = false → t.scratch = s.scratch) ∧
    (∀ n : EReg, elementDest i ≠ some n → (∀ k, pointDest i = some k → n.val ≠ 2 * k.val ∧ n.val ≠ 2 * k.val + 1) →
      t.e[n] = s.e[n]) ∧
    t.ieDone = s.ieDone ∧ t.ieErr = s.ieErr ∧ t.argAddr = s.argAddr ∧ t.argLen = s.argLen ∧ t.cmdL = s.cmdL ∧
    t.addrL = s.addrL ∧ t.lenL = s.lenL ∧ t.busy = s.busy ∧ t.done = s.done ∧ t.schedule = s.schedule ∧
    t.readData = s.readData ∧ t.draws = s.draws

/-- R35, R87: each flag is written only by the commands the table names, a command that records an error writes none, and
every flag resets to 0. -/
def Obligations.FlagWriters : Prop :=
  (∀ (i : Instr) (s t : State), exec i s = .next t →
    (writesZ i = false → t.flags.z = s.flags.z) ∧ (writesEq i = false → t.flags.eq = s.flags.eq) ∧
    (writesOnc i = false → t.flags.onc = s.flags.onc) ∧ (writesXlsb i = false → t.flags.xlsb = s.flags.xlsb) ∧
    (writesNoroot i = false → t.flags.noroot = s.flags.noroot) ∧
    (writesNotors i = false → t.flags.notors = s.flags.notors) ∧ (writesIso i = false → t.flags.iso = s.flags.iso) ∧
    (s.err = false → t.err = true → t.flags = s.flags)) ∧
  State.reset.flags = ⟨false, false, false, false, false, false, false⟩

/-- R36: while BUSY = 0 the command latch cannot be seen: two states that differ only in it take the same step, up to the
latch, and are equal once a command is in flight. (This is why the value the model gives the latch at reset, log entry 1,
shows nowhere.) -/
def Obligations.IdleLatchUnobservable : Prop :=
  ∀ (s : State) (c : Word) (a l : Offset), s.busy = false →
    match step s, step { s with cmdL := c, addrL := a, lenL := l } with
    | .next t, .next u => (t.busy = true → u = t) ∧ u = { t with cmdL := u.cmdL, addrL := u.addrL, lenL := u.lenL }
    | .fault f, .fault g => f = g
    | _, _ => False

/-! ### Keccak (41_keccak.md) and the sponge (42_sponge.md) -/

/-- R26, R57: StateByte and XorByte by the lane that holds the byte, and XorByte seen byte by byte. -/
def Obligations.StateByteView : Prop :=
  ∀ (a : KeccakState) (i : Nat) (b : Byte), i < 200 →
    (stateByte a i).toNat = (lane a (i / 8 / 5) (i / 8 % 5)).toNat / 2 ^ (8 * (i % 8)) % 256 ∧
    (∀ y < 5, ∀ x < 5, lane (xorByte a i b) y x =
      if x = i / 8 % 5 ∧ y = i / 8 / 5 then lane a y x ^^^ BitVec.ofNat 64 (b.toNat * 2 ^ (8 * (i % 8))) else lane a y x) ∧
    ∀ j < 200, stateByte (xorByte a i b) j = if j = i then stateByte a j ^^^ b else stateByte a j

/-- R91, R93, R94: theta, pi and chi, lane by lane, each from the state before it. -/
def Obligations.KeccakStepMappings : Prop :=
  ∀ (a : KeccakState) (y x : Nat), y < 5 → x < 5 →
    let c := fun x => lane a 0 x ^^^ lane a 1 x ^^^ lane a 2 x ^^^ lane a 3 x ^^^ lane a 4 x
    lane (theta a) y x = lane a y x ^^^ (c ((x + 4) % 5) ^^^ (c ((x + 1) % 5)).rotateLeft 1) ∧
    lane (piStep a) y x = lane a x ((x + 3 * y) % 5) ∧
    lane (chi a) y x = lane a y x ^^^ (~~~lane a y ((x + 1) % 5) &&& lane a y ((x + 2) % 5))

/-- R92, R95 to R97: rho rotates by the table of R92, iota changes one lane, and KeccakF is 24 rounds of theta, rho, pi, chi
and iota in that order, round i with the constant that the LFSR rc(t) gives. The reading of the table's rows and the
constants are what the spec marks as derived and as general knowledge (R92, R96). -/
def Obligations.KeccakRounds : Prop :=
  (∀ (a : KeccakState) (y x : Nat), y < 5 → x < 5 →
    lane (rho a) y x = (lane a y x).rotateLeft (([[0, 1, 62, 28, 27], [36, 44, 6, 55, 20], [3, 10, 43, 25, 39],
      [41, 45, 15, 21, 8], [18, 2, 61, 56, 14]].getD y []).getD x 0) ∧
    ∀ rc : Lane, lane (iota rc a) y x = if y = 0 ∧ x = 0 then lane a 0 0 ^^^ rc else lane a y x) ∧
  (∀ a : KeccakState, keccakF a = (List.range 24).foldl (fun b i => iota (rcWord i) (chi (piStep (rho (theta b))))) a) ∧
  ∀ i < 24, ∀ k < 64, (rcWord i).getLsbD k = (List.range 7).any fun j => k == 2 ^ j - 1 && rcBit (j + 7 * i)

/-- R99, R105, R110, R90: NOP, KPERM, KREL and KINIT complete in every state; KINIT's rates are those of the variants, and
V = 6 or 7 records IllegalField (at `exec`, where the decoder lets no such command through: log entry 10). -/
def Obligations.ControlAndStartResults : Prop :=
  ∀ s : State,
    exec .nop s = .next s ∧
    exec .kperm s = .next { s with sponge := { s.sponge with a := keccakF s.sponge.a, pos := 0 } } ∧
    (∃ z : KeccakState, (∀ y < 5, ∀ x < 5, lane z y x = 0) ∧
      exec .krel s = .next { s with sponge := ⟨z, .uninit, .sha3_224, 0, 0⟩ } ∧
      ∀ v : BitVec 3,
        (v.toNat ≤ 5 → ∃ x : Variant, variantCode x = v.toNat ∧ exec (.kinit v) s = .next { s with
          sponge := ⟨z, .absorbing, x, BitVec.ofNat 8 ([144, 136, 104, 72, 168, 136].getD v.toNat 0), 0⟩ }) ∧
        (5 < v.toNat → exec (.kinit v) s = .next (s.recordError .illegalField s.cmdL)))

/-- R102, R104: absorbing and squeezing one byte, with the permutation as soon as the block is full or used up. -/
def Obligations.BlockSteps : Prop :=
  ∀ (k : Sponge) (b : Byte), k.pos.toNat < k.rate.toNat →
    (k.pos.toNat + 1 < k.rate.toNat →
      absorbByte k b = { k with a := xorByte k.a k.pos.toNat b, pos := BitVec.ofNat 8 (k.pos.toNat + 1) } ∧
      squeezeByte k = (stateByte k.a k.pos.toNat, { k with pos := BitVec.ofNat 8 (k.pos.toNat + 1) })) ∧
    (k.pos.toNat + 1 = k.rate.toNat →
      absorbByte k b = { k with a := keccakF (xorByte k.a k.pos.toNat b), pos := 0 } ∧
      squeezeByte k = (stateByte k.a k.pos.toNat, { k with a := keccakF k.a, pos := 0 }))

/-- R106: KABS in phase ABSORBING, of a range inside the scratchpad whose bytes have been written, absorbs them in order. -/
def Obligations.KabsResult : Prop :=
  ∀ (s : State) (f : Nat → Byte), s.sponge.phase = .absorbing → s.addrL.toNat + s.lenL.toNat ≤ 4096 →
    (∀ i < s.lenL.toNat, readByte s.scratch (s.addrL.toNat + i) = some (f i)) →
    exec .kabs s = .next { s with sponge := ((List.range s.lenL.toNat).map f).foldl absorbByte s.sponge }

/-- R106: a message split over two KABS gives the same state as one KABS of the whole. -/
def Obligations.SplitAbsorb : Prop :=
  ∀ (s t : State) (n₁ n₂ : Nat), s.sponge.phase = .absorbing → s.lenL.toNat = n₁ + n₂ →
    s.addrL.toNat + s.lenL.toNat ≤ 4096 → exec .kabs s = .next t →
    ∃ u, exec .kabs { s with lenL := BitVec.ofNat 13 n₁ } = .next u ∧
      exec .kabs { u with addrL := BitVec.ofNat 13 (s.addrL.toNat + n₁), lenL := BitVec.ofNat 13 n₂ } =
        .next { t with addrL := BitVec.ofNat 13 (s.addrL.toNat + n₁), lenL := BitVec.ofNat 13 n₂ }

/-- R103, R107: KFIN in phase ABSORBING XORs the pad byte at POS and 0x80 at RATE - 1, permutes, and squeezes from POS = 0;
where POS = RATE - 1 both fall on one byte. -/
def Obligations.KfinResult : Prop :=
  ∀ s : State, s.sponge.phase = .absorbing →
    let pad : Byte := if variantCode s.sponge.variant ≤ 3 then 0x06 else 0x1F
    let padded := xorByte (xorByte s.sponge.a s.sponge.pos.toNat pad) (s.sponge.rate.toNat - 1) 0x80
    exec .kfin s = .next { s with
      sponge := { s.sponge with a := keccakF padded, pos := 0, phase := .squeezing } } ∧
    (s.sponge.pos.toNat = s.sponge.rate.toNat - 1 → s.sponge.pos.toNat < 200 →
      stateByte padded s.sponge.pos.toNat = stateByte s.sponge.a s.sponge.pos.toNat ^^^
        (if variantCode s.sponge.variant ≤ 3 then 0x86 else 0x9F))

/-- R104, R108: KSQZ in phase SQUEEZING applies SqueezeByte LEN_L times. Byte i of its range becomes the state byte at POS of
the sponge after i of them, every other byte stays, and the sponge is the one after all of them. -/
def Obligations.KsqzResult : Prop :=
  ∀ s : State, s.sponge.phase = .squeezing → s.addrL.toNat + s.lenL.toNat ≤ 4096 →
    let sponge := fun i => (fun k => (squeezeByte k).2)^[i] s.sponge
    ∃ m, exec .ksqz s = .next { s with sponge := sponge s.lenL.toNat, scratch := m } ∧
      ∀ a, readByte m a =
        if s.addrL.toNat ≤ a ∧ a < s.addrL.toNat + s.lenL.toNat then
          let k := sponge (a - s.addrL.toNat)
          some (stateByte k.a k.pos.toNat)
        else readByte s.scratch a

/-- R108: KSQZ of n1 bytes and then of n2 bytes writes the same bytes, and leaves the same sponge, as one KSQZ of
n1 + n2. -/
def Obligations.SplitSqueeze : Prop :=
  ∀ (s : State) (n₁ n₂ : Nat), s.sponge.phase = .squeezing → s.lenL.toNat = n₁ + n₂ →
    s.addrL.toNat + s.lenL.toNat ≤ 4096 →
    ∃ t u v, exec .ksqz s = .next t ∧ exec .ksqz { s with lenL := BitVec.ofNat 13 n₁ } = .next u ∧
      exec .ksqz { u with addrL := BitVec.ofNat 13 (s.addrL.toNat + n₁), lenL := BitVec.ofNat 13 n₂ } = .next v ∧
      v.sponge = t.sponge ∧ ∀ a, readByte v.scratch a = readByte t.scratch a

/-- R101, R109: KDIG of a SHA-3 variant is KFIN and then KSQZ of DigestLen(VAR) bytes, and changes no byte outside its
range; where RATE is the variant's, the squeeze permutes nothing and leaves POS = DigestLen(VAR). -/
def Obligations.KdigIsFinalizeThenSqueeze : Prop :=
  ∀ (s : State) (n : Nat), s.sponge.phase = .absorbing → variantCode s.sponge.variant ≤ 3 →
    n = [28, 32, 48, 64].getD (variantCode s.sponge.variant) 0 → s.addrL.toNat + n ≤ 4096 →
    ∃ u v, exec .kfin s = .next u ∧ exec .ksqz { u with lenL := BitVec.ofNat 13 n } = .next v ∧
      exec .kdig s = .next { v with lenL := s.lenL } ∧
      (∀ a, (a < s.addrL.toNat ∨ s.addrL.toNat + n ≤ a) → readByte v.scratch a = readByte s.scratch a) ∧
      (s.sponge.rate.toNat = variantRate s.sponge.variant →
        v.sponge.a = u.sponge.a ∧ v.sponge.pos.toNat = n ∧ v.sponge.phase = .squeezing)

/-! ### Field arithmetic and transfers (43_field.md) -/

/-- R114 to R117, R121 to R123, R125, R127, R129: FADD, FSUB, FMUL, FNEG, FRED and FMOV complete in every state; each writes
its result, reduced into [0, m) but for FMOV, and Z. -/
def Obligations.RingCommandResults : Prop :=
  ∀ (m : Modulus) (rd rs1 rs2 : EReg) (s : State),
    let x := s.e[rs1].toNat
    let y := s.e[rs2].toNat
    let modulus := match m with
      | .p => 2 ^ 256 - 189
      | .r => 2 ^ 254 - 87175310462106073678594642380840586067
    let result := fun v : Nat =>
      ({ s with e := s.e.set rd (BitVec.ofNat 256 v), flags := { s.flags with z := decide (v = 0) } } : State)
    exec (.fadd m rd rs1 rs2) s = .next (result ((x + y) % modulus)) ∧
    exec (.fsub m rd rs1 rs2) s = .next (result (((x : Int) - y) % (modulus : Nat)).toNat) ∧
    exec (.fmul m rd rs1 rs2) s = .next (result (x * y % modulus)) ∧
    exec (.fneg m rd rs1) s = .next (result ((0 - (x : Int)) % (modulus : Nat)).toNat) ∧
    exec (.fred m rd rs1) s = .next (result (x % modulus)) ∧
    exec (.fmov rd rs1) s = .next (result x)

/-- R124: FPOW completes in every state and writes the power by the whole raw exponent, reduced mod m, and Z; x^0 = 1. -/
def Obligations.FpowResult : Prop :=
  ∀ (m : Modulus) (rd rs1 rs2 : EReg) (s : State),
    let v := s.e[rs1].toNat ^ s.e[rs2].toNat % modulusValue m
    exec (.fpow m rd rs1 rs2) s = .next { s with
      e := s.e.set rd (BitVec.ofNat 256 v), flags := { s.flags with z := decide (v = 0) } }

/-- R118, R126: where E[rs1] mod m is not 0 there is one inverse in [1, m), and FINV writes it and clears Z; where it is 0,
FINV records NoInverse and has no effect. -/
def Obligations.FinvResult : Prop :=
  ∀ (m : Modulus) (rd rs1 : EReg) (s : State),
    (s.e[rs1].toNat % modulusValue m ≠ 0 →
      ∃ x, (0 < x ∧ x < modulusValue m ∧ s.e[rs1].toNat * x % modulusValue m = 1) ∧
        (∀ y, 0 < y → y < modulusValue m → s.e[rs1].toNat * y % modulusValue m = 1 → y = x) ∧
        exec (.finv m rd rs1) s = .next { s with
          e := s.e.set rd (BitVec.ofNat 256 x), flags := { s.flags with z := false } }) ∧
    (s.e[rs1].toNat % modulusValue m = 0 → exec (.finv m rd rs1) s = .next (s.recordError .noInverse s.cmdL))

/-- R119, R120, R128: FSQRT completes in every state. Where E[rs1] mod p is a square it writes the root of the requested
parity (0 for 0), NOROOT <- 0 and Z; where it is not, it sets NOROOT and nothing else. -/
def Obligations.FsqrtResult : Prop :=
  ∀ (rd rs1 : EReg) (lsb : Bool) (s : State),
    ((∃ x, x * x % primeP = s.e[rs1].toNat % primeP) →
      ∃ c, c < primeP ∧ c * c % primeP = s.e[rs1].toNat % primeP ∧
        (s.e[rs1].toNat % primeP ≠ 0 → c % 2 = lsb.toNat) ∧
        exec (.fsqrt rd rs1 lsb) s = .next { s with
          e := s.e.set rd (BitVec.ofNat 256 c), flags := { s.flags with noroot := false, z := decide (c = 0) } }) ∧
    ((∀ x, x * x % primeP ≠ s.e[rs1].toNat % primeP) →
      exec (.fsqrt rd rs1 lsb) s = .next { s with flags := { s.flags with noroot := true } })

/-- R59, R130: LDBE of at most 64 bytes that have been written, inside the scratchpad, writes their big-endian value reduced
mod m, and Z. -/
def Obligations.LdbeResult : Prop :=
  ∀ (m : Modulus) (rd : EReg) (s : State) (f : Nat → Byte), s.lenL.toNat ≤ 64 →
    s.addrL.toNat + s.lenL.toNat ≤ 4096 →
    (∀ i < s.lenL.toNat, readByte s.scratch (s.addrL.toNat + i) = some (f i)) →
    let v := ((List.range s.lenL.toNat).map fun i => (f i).toNat * 256 ^ (s.lenL.toNat - 1 - i)).sum % modulusValue m
    exec (.ldbe m rd) s = .next { s with
      e := s.e.set rd (BitVec.ofNat 256 v), flags := { s.flags with z := decide (v = 0) } }

/-- R59, R131: STBE inside the scratchpad writes the raw register as 32 bytes from ADDR_L on, most significant first, and
changes no other byte. -/
def Obligations.StbeResult : Prop :=
  ∀ (rs1 : EReg) (s : State), s.addrL.toNat + 32 ≤ 4096 →
    ∃ m, exec (.stbe rs1) s = .next { s with scratch := m } ∧
      ∀ a, readByte m a =
        if s.addrL.toNat ≤ a ∧ a < s.addrL.toNat + 32 then
          some (BitVec.ofNat 8 (s.e[rs1].toNat / 256 ^ (31 - (a - s.addrL.toNat))))
        else readByte s.scratch a

/-! ### Edwards points (44_edwards.md) -/

/-- R33, R143, R144: PNEUT and PGEN complete in every state; G is on the curve, with y = -4 mod p and x even. -/
def Obligations.ConstantPointResults : Prop :=
  ∀ (pd : PReg) (s : State),
    (xReg pd).val = 2 * pd.val ∧ (yReg pd).val = 2 * pd.val + 1 ∧
    exec (.pneut pd) s = .next { s with
      e := (s.e.set (xReg pd) 0).set (yReg pd) 1, flags := { s.flags with iso := true } } ∧
    ∃ gx gy : Nat, gx < primeP ∧ gy + 4 = primeP ∧ gx % 2 = 0 ∧
      (gx * gx + gy * gy) % primeP = (1 + 15343 * gx * gx * gy * gy) % primeP ∧
      exec (.pgen pd) s = .next { s with
        e := (s.e.set (xReg pd) (BitVec.ofNat 256 gx)).set (yReg pd) (BitVec.ofNat 256 gy)
        flags := { s.flags with iso := false } }

/-- R136, R139, R145: PADD of the reduced coordinates. Where neither denominator is 0 mod p it writes the one pair in [0, p)
that the two fractions name, and ISO; where one is 0 it records NoInverse and has no effect. -/
def Obligations.PaddResult : Prop :=
  ∀ (pd pa pb : PReg) (s : State),
    let x1 := (s.e[xReg pa].toNat : Int) % (primeP : Nat)
    let y1 := (s.e[yReg pa].toNat : Int) % (primeP : Nat)
    let x2 := (s.e[xReg pb].toNat : Int) % (primeP : Nat)
    let y2 := (s.e[yReg pb].toNat : Int) % (primeP : Nat)
    let dd := 15343 * x1 * x2 * y1 * y2
    ((1 + dd) % (primeP : Nat) ≠ 0 → (1 - dd) % (primeP : Nat) ≠ 0 →
      ∃ x3 y3 : Nat, x3 < primeP ∧ y3 < primeP ∧
        x3 * (1 + dd) ≡ x1 * y2 + y1 * x2 [ZMOD (primeP : Nat)] ∧
        y3 * (1 - dd) ≡ y1 * y2 - x1 * x2 [ZMOD (primeP : Nat)] ∧
        exec (.padd pd pa pb) s = .next { s with
          e := (s.e.set (xReg pd) (BitVec.ofNat 256 x3)).set (yReg pd) (BitVec.ofNat 256 y3)
          flags := { s.flags with iso := decide (x3 = 0 ∧ y3 = 1) } }) ∧
    ((1 + dd) % (primeP : Nat) = 0 ∨ (1 - dd) % (primeP : Nat) = 0 →
      exec (.padd pd pa pb) s = .next (s.recordError .noInverse s.cmdL))

/-- R140, R138: EdAdd of two curve points never needs the inverse of 0, and its result is a curve point; so PADD of curve
points records no error and leaves a curve point. -/
def Obligations.CurveAdditionComplete : Prop :=
  (∀ q₁ q₂ : Point, onCurve q₁ = true → onCurve q₂ = true →
    ∃ q₃, edAdd q₁ q₂ = some q₃ ∧ onCurve q₃ = true ∧ q₃.1 < primeP ∧ q₃.2 < primeP) ∧
  ∀ (pd pa pb : PReg) (s : State), onCurve (s.readPoint pa) = true → onCurve (s.readPoint pb) = true →
    ∃ t, exec (.padd pd pa pb) s = .next t ∧ onCurve (t.readPoint pd) = true ∧ t.err = s.err ∧
      t.errCode = s.errCode ∧ t.errInfo = s.errInfo

/-- R133, R145: O is the identity of the addition, on any pair of reduced coordinates, and a curve point and its negative
add to O. -/
def Obligations.NeutralAndNegation : Prop :=
  (∀ q : Point, q.1 < primeP → q.2 < primeP → edAdd neutral q = some q ∧ edAdd q neutral = some q) ∧
  ∀ q : Point, onCurve q = true → edAdd q ((primeP - q.1 % primeP) % primeP, q.2) = some neutral

/-- R146, R148, R149, R150: PNEG, PEQ, PONC and PCOMP complete in every state, on the coordinates reduced mod p. -/
def Obligations.PointQueryResults : Prop :=
  ∀ (pd pa pb : PReg) (rd : EReg) (s : State),
    let xa := s.e[xReg pa].toNat % primeP
    let ya := s.e[yReg pa].toNat % primeP
    let xb := s.e[xReg pb].toNat % primeP
    let yb := s.e[yReg pb].toNat % primeP
    exec (.pneg pd pa) s = .next { s with
      e := (s.e.set (xReg pd) (BitVec.ofNat 256 ((primeP - xa) % primeP))).set (yReg pd) (BitVec.ofNat 256 ya)
      flags := { s.flags with iso := decide (xa = 0 ∧ ya = 1) } } ∧
    exec (.peq pa pb) s = .next { s with flags := { s.flags with eq := decide (xa = xb ∧ ya = yb) } } ∧
    exec (.ponc pa) s = .next { s with flags := { s.flags with
      onc := decide ((xa * xa + ya * ya) % primeP = (1 + 15343 * xa * xa * ya * ya) % primeP) } } ∧
    exec (.pcomp rd pa) s = .next { s with
      e := s.e.set rd (BitVec.ofNat 256 ya), flags := { s.flags with xlsb := decide (xa % 2 = 1) } }

/-- R141, R147: PMUL writes EdMulRaw of the reduced point and the scalar mod r, and ISO, or records NoInverse where it needs
the inverse of 0; EdMulRaw is double-and-add, the bits of the scalar taken from the left, starting from O. -/
def Obligations.PmulResult : Prop :=
  (∀ (pd pa : PReg) (rs2 : EReg) (s : State),
    let q : Point := (s.e[xReg pa].toNat % primeP, s.e[yReg pa].toNat % primeP)
    (∀ x y, edMulRaw q (s.e[rs2].toNat % orderR) = some (x, y) →
      exec (.pmul pd pa rs2) s = .next { s with
        e := (s.e.set (xReg pd) (BitVec.ofNat 256 x)).set (yReg pd) (BitVec.ofNat 256 y)
        flags := { s.flags with iso := decide (x = 0 ∧ y = 1) } }) ∧
    (edMulRaw q (s.e[rs2].toNat % orderR) = none →
      exec (.pmul pd pa rs2) s = .next (s.recordError .noInverse s.cmdL))) ∧
  ∀ (q : Point) (k : Nat), edMulRaw q 0 = some (0, 1) ∧
    edMulRaw q (2 * k) = (if k = 0 then some (0, 1) else (edMulRaw q k).bind fun u => edAdd u u) ∧
    edMulRaw q (2 * k + 1) = (edMulRaw q k).bind fun u => (edAdd u u).bind fun w => edAdd w q

/-- R147, R140: PMUL of a curve point completes for every scalar: it records no error and leaves a curve point. -/
def Obligations.PmulOnCurveCompletes : Prop :=
  ∀ (pd pa : PReg) (rs2 : EReg) (s : State), onCurve (s.readPoint pa) = true →
    ∃ x y, edMulRaw (s.readPoint pa) (s.e[rs2].toNat % orderR) = some (x, y) ∧ onCurve (x, y) = true ∧
      exec (.pmul pd pa rs2) s = .next { s with
        e := (s.e.set (xReg pd) (BitVec.ofNat 256 x)).set (yReg pd) (BitVec.ofNat 256 y)
        flags := { s.flags with iso := decide (x = 0 ∧ y = 1) } }

/-- R151, R152: PDEC completes in every state and never records an error. With y = E[rs1] mod p: where no x puts (x, y) on
the curve it writes O with NOROOT; else there is a root x of the requested parity (or 0), and it writes (x, y) where
r·(x, y) = O, and O with NOTORS where not. -/
def Obligations.PdecResult : Prop :=
  ∀ (pd : PReg) (rs1 : EReg) (lsb : Bool) (s : State),
    let y := s.e[rs1].toNat % primeP
    let result := fun (q : Point) (noroot notors : Bool) =>
      ({ s with
        e := (s.e.set (xReg pd) (BitVec.ofNat 256 q.1)).set (yReg pd) (BitVec.ofNat 256 q.2)
        flags := { s.flags with noroot := noroot, notors := notors, iso := decide (q.1 = 0 ∧ q.2 = 1) } } : State)
    ((∀ x < primeP, onCurve (x, y) = false) → exec (.pdec pd rs1 lsb) s = .next (result (0, 1) true false)) ∧
    ((∃ x < primeP, onCurve (x, y) = true) →
      ∃ x < primeP, onCurve (x, y) = true ∧ (x ≠ 0 → x % 2 = lsb.toNat) ∧
        ∃ u, edMulRaw (x, y) orderR = some u ∧
          (u = (0, 1) → exec (.pdec pd rs1 lsb) s = .next (result (x, y) false false)) ∧
          (u ≠ (0, 1) → exec (.pdec pd rs1 lsb) s = .next (result (0, 1) false true)))

/-- 95_test_vectors.md S6: PCOMP and then PDEC with the parity it showed gives back every curve point that r takes to O. -/
def Obligations.DecompressionInvertsCompression : Prop :=
  ∀ (rd : EReg) (pa pd : PReg) (s : State), onCurve (s.readPoint pa) = true →
    edMulRaw (s.readPoint pa) orderR = some (0, 1) →
    ∃ t u, exec (.pcomp rd pa) s = .next t ∧ exec (.pdec pd rd t.flags.xlsb) t = .next u ∧
      u.readPoint pd = s.readPoint pa ∧ u.flags.noroot = false ∧ u.flags.notors = false
end

