-- ==== Sys2Proof/Laws/Arith.lean ====
section
/-! SUPPORT. What the arithmetic helpers compute: remainders of integers, powers, and the bit length. -/

namespace Sys2Proof.Machine

/-! ### modInt -/

theorem primeP_pos : 0 < primeP := by decide
theorem orderR_pos : 0 < orderR := by decide
theorem modulusValue_pos (m : Modulus) : 0 < modulusValue m := by cases m <;> decide
theorem modulusValue_lt (m : Modulus) : modulusValue m < 2 ^ 256 := by cases m <;> decide
theorem one_lt_modulusValue (m : Modulus) : 1 < modulusValue m := by cases m <;> decide

/-- `modInt v m` is the one number below `m` that is congruent to `v`. -/
theorem modInt_cast {m : Nat} (hm : 0 < m) (v : Int) : (modInt v m : Int) = v % m :=
  Int.toNat_of_nonneg (Int.emod_nonneg v (by omega))

theorem modInt_lt {m : Nat} (hm : 0 < m) (v : Int) : modInt v m < m := by
  have h := modInt_cast hm v
  have := Int.emod_lt_of_pos v (show (0 : Int) < m by omega)
  omega

@[simp] theorem modInt_natCast (n m : Nat) : modInt (n : Int) m = n % m := by
  simp only [modInt]
  exact_mod_cast Int.toNat_natCast (n % m)

/-- In the residue ring, `modInt` is the integer itself. -/
theorem modInt_zmod {m : Nat} (hm : 0 < m) (v : Int) : ((modInt v m : Nat) : ZMod m) = (v : ZMod m) := by
  have h : ((modInt v m : Int) : ZMod m) = ((v % m : Int) : ZMod m) := by rw [modInt_cast hm]
  rw [ZMod.intCast_mod] at h
  exact_mod_cast h

theorem modInt_eq_zero_iff {m : Nat} (hm : 0 < m) (v : Int) : modInt v m = 0 ↔ (v : ZMod m) = 0 := by
  rw [ZMod.intCast_zmod_eq_zero_iff_dvd v m, Int.dvd_iff_emod_eq_zero, ← modInt_cast hm]
  omega

/-- Numbers below `m` are equal when their residues are. -/
theorem eq_of_zmod_eq {m a b : Nat} (ha : a < m) (hb : b < m) (h : (a : ZMod m) = b) : a = b := by
  have := (ZMod.natCast_eq_natCast_iff' a b m).mp h
  rwa [Nat.mod_eq_of_lt ha, Nat.mod_eq_of_lt hb] at this

/-! ### bitLength -/

@[simp] theorem bitLength_zero : bitLength 0 = 0 := rfl

/-- A number is below 2 to its bit length. -/
theorem lt_two_pow_bitLength (k : Nat) : k < 2 ^ bitLength k := by
  unfold bitLength
  split
  · next h => simp [h]
  · exact Nat.lt_log2_self

/-- A number that is not 0 is at least 2 to its bit length less one. -/
theorem two_pow_le_of_bitLength {k : Nat} (hk : k ≠ 0) : 2 ^ (bitLength k - 1) ≤ k := by
  simpa [bitLength, hk] using Nat.log2_self_le hk

/-- Appending a bit makes a number that is not 0 one bit longer. -/
theorem bitLength_two_mul_add {k b : Nat} (hk : k ≠ 0) (hb : b < 2) : bitLength (2 * k + b) = bitLength k + 1 := by
  have h0 : 2 * k + b ≠ 0 := by omega
  have h1 : (2 * k + b).log2 = k.log2 + 1 := by
    rw [Nat.log2_eq_iff h0]
    have := Nat.log2_self_le hk
    have := @Nat.lt_log2_self k
    constructor <;> rw [Nat.pow_succ] <;> omega
  simp [bitLength, hk, h1]

/-! ### powMod -/

theorem powModFrom_modEq (m b e i acc : Nat) :
    powModFrom m b e i acc ≡ acc ^ 256 ^ i * b ^ (e % 256 ^ i) [MOD m] := by
  induction i generalizing acc with
  | zero => simpa [powModFrom, Nat.mod_one] using Nat.ModEq.refl acc
  | succ i ih =>
    rw [powModFrom]
    refine (ih _).trans ?_
    have h1 : (acc ^ 256 * b ^ (e / 256 ^ i % 256) % m) ^ 256 ^ i ≡
        (acc ^ 256 * b ^ (e / 256 ^ i % 256)) ^ 256 ^ i [MOD m] := (Nat.mod_modEq _ _).pow _
    refine (h1.mul_right _).trans ?_
    have h2 : (acc ^ 256 * b ^ (e / 256 ^ i % 256)) ^ 256 ^ i * b ^ (e % 256 ^ i) =
        acc ^ 256 ^ (i + 1) * b ^ (e % 256 ^ (i + 1)) := by
      rw [Nat.mod_pow_succ, mul_pow, ← pow_mul, ← pow_mul, mul_assoc, ← pow_add, ← pow_succ']
      congr 2
      ring
    rw [h2]

theorem powModFrom_mod (m b e i acc : Nat) (h : acc % m = acc) :
    powModFrom m b e i acc % m = powModFrom m b e i acc := by
  induction i generalizing acc with
  | zero => exact h
  | succ i ih => exact ih _ (Nat.mod_mod _ _)

/-- `powMod` is the power reduced, with x^0 = 1 (R124). -/
theorem powMod_eq (m b e : Nat) : powMod m b e = b ^ e % m := by
  have hd : e < 256 ^ ((bitLength e + 7) / 8) := by
    calc e < 2 ^ bitLength e := lt_two_pow_bitLength e
      _ ≤ 2 ^ (8 * ((bitLength e + 7) / 8)) := Nat.pow_le_pow_right (by omega) (by omega)
      _ = 256 ^ ((bitLength e + 7) / 8) := by rw [Nat.pow_mul]
  have h : powMod m b e ≡ b ^ e [MOD m] := by
    refine (powModFrom_modEq _ _ _ _ _).trans ?_
    rw [Nat.mod_eq_of_lt hd]
    simpa using ((Nat.mod_modEq 1 m).pow _).mul ((Nat.mod_modEq b m).pow e)
  rw [← h]
  exact (powModFrom_mod _ _ _ _ _ (Nat.mod_mod _ _)).symm

/-! ### The recurrences of EdMulRaw's loop -/

theorem edMulRaw_zero (a : Point) : edMulRaw a 0 = some neutral := rfl

/-- The loop over one more low bit: what the higher bits give, doubled, and the point added where the bit is 1. -/
theorem edMulFrom_snoc (a : Point) (k b i : Nat) (hb : b < 2) (q : Point) :
    edMulFrom a (2 * k + b) (i + 1) q =
      (edMulFrom a k i q).bind fun r => (edAdd r r).bind fun r2 => if b = 1 then edAdd r2 a else some r2 := by
  induction i generalizing q with
  | zero =>
    have h : (2 * k + b).testBit 0 = decide (b = 1) := by
      rw [Nat.testBit_zero]
      congr 1
      simp only [eq_iff_iff]
      omega
    simp only [edMulFrom, h, Option.bind_some]
    cases edAdd q q with
    | none => rfl
    | some q2 => by_cases hb1 : b = 1 <;> cases hq : edAdd q2 a <;> simp [hb1, hq]
  | succ i ih =>
    have h : (2 * k + b).testBit (i + 1) = k.testBit i := by
      rw [Nat.testBit_succ]
      congr 1
      omega
    rw [edMulFrom, h, edMulFrom]
    cases edAdd q q with
    | none => rfl
    | some q2 =>
      dsimp only
      cases (if k.testBit i = true then edAdd q2 a else some q2) with
      | none => rfl
      | some q3 => exact ih q3

end Sys2Proof.Machine
end

