-- ==== Sys2Proof/Laws/Memory.lean ====
section
/-! SUPPORT. The scratchpad: read after write, and that every write keeps the canonical form. -/

namespace Sys2Proof.Machine

/-! ### One byte -/

/-- A write decides one byte and leaves every other as it was. -/
theorem readByte_writeByte (m : Memory) (a a' : Nat) (b : Byte) :
    readByte (writeByte m a b) a' = if a' = a then some b else readByte m a' := by
  induction m with
  | nil => simp [writeByte, readByte, eq_comm]
  | cons c rest ih =>
    rw [writeByte]
    split
    · simp [readByte, eq_comm]
    · split
      · next h => subst h; by_cases h' : a' = c.1 <;> simp [readByte, h', eq_comm]
      · next h =>
        rw [readByte, ih, readByte]
        by_cases h' : c.1 = a'
        · subst h'; simp [Ne.symm h]
        · simp [h']

@[simp] theorem readByte_writeByte_same (m : Memory) (a : Nat) (b : Byte) : readByte (writeByte m a b) a = some b := by
  simp [readByte_writeByte]

theorem readByte_writeByte_other (m : Memory) {a a' : Nat} (b : Byte) (h : a' ≠ a) :
    readByte (writeByte m a b) a' = readByte m a' := by
  simp [readByte_writeByte, h]

/-! ### Byte ranges -/

/-- MemWrite decides exactly the bytes of its range: byte `a + i` holds `bs[i]`, every other byte is as before. -/
theorem readByte_writeBytes (m : Memory) (a : Nat) (bs : List Byte) (a' : Nat) :
    readByte (writeBytes m a bs) a' =
      if a ≤ a' ∧ a' < a + bs.length then bs[a' - a]? else readByte m a' := by
  induction bs generalizing m a with
  | nil =>
    have h : ¬(a ≤ a' ∧ a' < a + ([] : List Byte).length) := by simp only [List.length_nil]; omega
    rw [if_neg h]; rfl
  | cons b rest ih =>
    rw [writeBytes, ih, readByte_writeByte]
    by_cases h : a' = a
    · subst h; simp
    · by_cases h' : a + 1 ≤ a' ∧ a' < a + 1 + rest.length
      · have hr : a ≤ a' ∧ a' < a + (b :: rest).length := by simp only [List.length_cons]; omega
        rw [if_pos h', if_pos hr]
        have hs : a' - a = (a' - (a + 1)) + 1 := by omega
        rw [hs, List.getElem?_cons_succ]
      · have hr : ¬(a ≤ a' ∧ a' < a + (b :: rest).length) := by simp only [List.length_cons]; omega
        rw [if_neg h', if_neg hr, if_neg h]

/-- MemRead of `n` written bytes gives them in order. -/
theorem readBytes_eq_some (m : Memory) (a n : Nat) (f : Nat → Byte) (h : ∀ i < n, readByte m (a + i) = some (f i)) :
    readBytes m a n = some ((List.range n).map f) := by
  induction n generalizing a f with
  | zero => rfl
  | succ n ih =>
    have h0 := h 0 (by omega)
    have hs := ih (a + 1) (fun i => f (i + 1)) fun i hi => by
      have := h (i + 1) (by omega)
      rwa [show a + (i + 1) = a + 1 + i by omega] at this
    simp only [Nat.add_zero] at h0
    simp [readBytes, h0, hs, List.range_succ_eq_map, Function.comp_def]

/-- MemRead has no value where one byte of the range was never written (R53). -/
theorem readBytes_eq_none (m : Memory) (a n i : Nat) (hi : i < n) (h : readByte m (a + i) = none) :
    readBytes m a n = none := by
  induction n generalizing a i with
  | zero => omega
  | succ n ih =>
    cases i with
    | zero => simp [readBytes, show readByte m a = none from h]
    | succ i =>
      have := ih (a + 1) i (by omega) (by rwa [show a + 1 + i = a + (i + 1) by omega])
      rw [readBytes, this]
      cases readByte m a <;> rfl

theorem length_readBytes {m : Memory} {a n : Nat} {bs : List Byte} (h : readBytes m a n = some bs) : bs.length = n := by
  induction n generalizing a bs with
  | zero => simp [readBytes] at h; simp [h.symm]
  | succ n ih =>
    rw [readBytes] at h
    split at h
    · next hb => cases h; simp [ih hb]
    · cases h

/-- MemRead of a range is MemRead of its first part and of the rest. -/
theorem readBytes_append {m : Memory} {a n₁ n₂ : Nat} {bs : List Byte} (h : readBytes m a (n₁ + n₂) = some bs) :
    ∃ bs₁ bs₂, readBytes m a n₁ = some bs₁ ∧ readBytes m (a + n₁) n₂ = some bs₂ ∧ bs = bs₁ ++ bs₂ := by
  induction n₁ generalizing a bs with
  | zero => exact ⟨[], bs, rfl, by simpa using h, rfl⟩
  | succ n₁ ih =>
    rw [show n₁ + 1 + n₂ = (n₁ + n₂) + 1 by omega, readBytes] at h
    split at h
    · next b bs' hb hbs =>
      cases h
      obtain ⟨bs₁, bs₂, h₁, h₂, rfl⟩ := ih hbs
      exact ⟨b :: bs₁, bs₂, by simp [readBytes, hb, h₁], by rwa [show a + (n₁ + 1) = a + 1 + n₁ by omega], rfl⟩
    · cases h

/-! ### The canonical form -/

theorem mem_writeByte {m : Memory} {a : Nat} {b : Byte} {c : Host.Cell} (h : c ∈ writeByte m a b) :
    c = (a, b) ∨ c ∈ m := by
  induction m with
  | nil => simpa [writeByte] using h
  | cons d rest ih =>
    rw [writeByte] at h
    split at h
    · simpa using h
    · split at h
      · rcases List.mem_cons.mp h with h | h
        · exact .inl h
        · exact .inr (List.mem_cons_of_mem _ h)
      · rcases List.mem_cons.mp h with h | h
        · exact .inr (h ▸ List.mem_cons_self)
        · rcases ih h with h | h
          · exact .inl h
          · exact .inr (List.mem_cons_of_mem _ h)

/-- Writing one byte keeps the addresses strictly rising. -/
theorem pairwise_writeByte {m : Memory} (a : Nat) (b : Byte) (h : m.Pairwise fun c c' => c.1 < c'.1) :
    (writeByte m a b).Pairwise fun c c' => c.1 < c'.1 := by
  induction m with
  | nil => simp [writeByte]
  | cons d rest ih =>
    obtain ⟨hd, hr⟩ := List.pairwise_cons.mp h
    rw [writeByte]
    split
    · next hlt =>
      refine List.pairwise_cons.mpr ⟨fun c hc => ?_, h⟩
      rcases List.mem_cons.mp hc with rfl | hc
      · exact hlt
      · exact Nat.lt_trans hlt (hd c hc)
    · split
      · next heq => exact List.pairwise_cons.mpr ⟨fun c hc => heq ▸ hd c hc, hr⟩
      · next hge hne =>
        refine List.pairwise_cons.mpr ⟨fun c hc => ?_, ih hr⟩
        rcases mem_writeByte hc with rfl | hc
        · show d.1 < a; omega
        · exact hd c hc

theorem Memory.wf_iff (m : Memory) :
    Memory.wf m = true ↔ (m.Pairwise fun c c' => c.1 < c'.1) ∧ ∀ c ∈ m, c.1 < scratchBytes := by
  simp [Memory.wf]

/-- Writing a byte of the scratchpad keeps the canonical form. -/
theorem writeByte_wf {m : Memory} {a : Nat} (b : Byte) (h : Memory.wf m = true) (ha : a < scratchBytes) :
    Memory.wf (writeByte m a b) = true := by
  rw [Memory.wf_iff] at h ⊢
  refine ⟨pairwise_writeByte a b h.1, fun c hc => ?_⟩
  rcases mem_writeByte hc with rfl | hc
  · exact ha
  · exact h.2 c hc

/-- MemWrite inside the scratchpad keeps the canonical form. -/
theorem writeBytes_wf {m : Memory} {a : Nat} (bs : List Byte) (h : Memory.wf m = true)
    (ha : a + bs.length ≤ scratchBytes) : Memory.wf (writeBytes m a bs) = true := by
  induction bs generalizing m a with
  | nil => exact h
  | cons b rest ih =>
    simp only [List.length_cons] at ha
    exact ih (writeByte_wf b h (by omega)) (by omega)

/-- In canonical form, memories that read alike are equal. -/
theorem memory_ext {m m' : Memory} (h : Memory.wf m = true) (h' : Memory.wf m' = true)
    (hr : ∀ a, readByte m a = readByte m' a) : m = m' := by
  rw [Memory.wf_iff] at h h'
  replace h := h.1
  replace h' := h'.1
  induction m generalizing m' with
  | nil =>
    cases m' with
    | nil => rfl
    | cons c rest => have := hr c.1; simp [readByte] at this
  | cons c rest ih =>
    cases m' with
    | nil => have := hr c.1; simp [readByte] at this
    | cons c' rest' =>
      obtain ⟨hc, hrest⟩ := List.pairwise_cons.mp h
      obtain ⟨hc', hrest'⟩ := List.pairwise_cons.mp h'
      have none_below : ∀ (l : Memory) (d : Host.Cell), (∀ e ∈ l, d.1 < e.1) → ∀ a ≤ d.1, readByte l a = none := by
        intro l d hl a ha
        induction l with
        | nil => rfl
        | cons e l ihl =>
          have he := hl e List.mem_cons_self
          rw [readByte, if_neg (by omega), ihl fun e he => hl e (List.mem_cons_of_mem _ he)]
      have heq : c.1 = c'.1 := by
        rcases Nat.lt_trichotomy c.1 c'.1 with hlt | heq | hlt
        · have h1 := hr c.1
          have h2 := none_below rest' c' hc' c.1 (by omega)
          rw [readByte, if_pos rfl, readByte, if_neg (by omega), h2] at h1
          cases h1
        · exact heq
        · have h1 := hr c'.1
          have h2 := none_below rest c hc c'.1 (by omega)
          rw [readByte, if_neg (by omega), h2, readByte, if_pos rfl] at h1
          cases h1
      have hval : c.2 = c'.2 := by
        have h1 := hr c.1
        rw [readByte, if_pos rfl, readByte, if_pos heq.symm] at h1
        exact Option.some.inj h1
      obtain rfl : c = c' := Prod.ext heq hval
      rw [ih (m' := rest') (fun a => ?_) hrest hrest']
      by_cases ha : c.1 = a
      · rw [none_below rest c hc a (by omega), none_below rest' c hc' a (by omega)]
      · have := hr a
        rwa [readByte, if_neg ha, readByte, if_neg ha] at this

/-! ### Big-endian integers -/

@[simp] theorem length_beBytes (v n : Nat) : (beBytes v n).length = n := by
  induction n with
  | zero => rfl
  | succ n ih => simp [beBytes, ih]

@[simp] theorem length_be32 (v : Elem) : (be32 v).length = 32 := length_beBytes _ _

/-- Byte `i` of `n` big-endian bytes: the most significant is byte 0 (R15). -/
theorem getElem?_beBytes (v n i : Nat) (h : i < n) :
    (beBytes v n)[i]? = some (BitVec.ofNat 8 (v / 256 ^ (n - 1 - i))) := by
  induction n generalizing i with
  | zero => omega
  | succ n ih =>
    cases i with
    | zero => simp [beBytes]
    | succ i => simp [beBytes, ih i (by omega), show n - 1 - i = n - (i + 1) by omega]

@[simp] theorem length_wordBytes (v : Word) : (wordBytes v).length = 4 := rfl

end Sys2Proof.Machine
end

