-- ==== Sys2Proof/Laws/State.lean ====
section
/-! SUPPORT. What each update of the state leaves in each field: one lemma per field per update. -/

namespace Sys2Proof.Machine

/-! ### The reset state -/

@[simp] theorem reset_sponge : State.reset.sponge = resetSponge := rfl
@[simp] theorem reset_e : State.reset.e = Vector.replicate 16 0 := rfl
@[simp] theorem reset_flags : State.reset.flags = ⟨false, false, false, false, false, false, false⟩ := rfl
@[simp] theorem reset_scratch : State.reset.scratch = [] := rfl
@[simp] theorem reset_ieDone : State.reset.ieDone = false := rfl
@[simp] theorem reset_ieErr : State.reset.ieErr = false := rfl
@[simp] theorem reset_busy : State.reset.busy = false := rfl
@[simp] theorem reset_done : State.reset.done = false := rfl
@[simp] theorem reset_err : State.reset.err = false := rfl
@[simp] theorem reset_errCode : State.reset.errCode = none := rfl
@[simp] theorem reset_errInfo : State.reset.errInfo = 0 := rfl
@[simp] theorem reset_argAddr : State.reset.argAddr = 0 := rfl
@[simp] theorem reset_argLen : State.reset.argLen = 0 := rfl
@[simp] theorem reset_cmdL : State.reset.cmdL = 0 := rfl
@[simp] theorem reset_addrL : State.reset.addrL = 0 := rfl
@[simp] theorem reset_lenL : State.reset.lenL = 0 := rfl
@[simp] theorem reset_schedule : State.reset.schedule = [] := rfl
@[simp] theorem reset_readData : State.reset.readData = none := rfl
@[simp] theorem reset_draws : State.reset.draws = 0 := rfl

/-! ### writeE -/

@[simp] theorem writeE_sponge (s : State) (i : EReg) (v : Nat) : (s.writeE i v).sponge = s.sponge := rfl
@[simp] theorem writeE_e (s : State) (i : EReg) (v : Nat) : (s.writeE i v).e = s.e.set i (BitVec.ofNat 256 v) := rfl
@[simp] theorem writeE_flags (s : State) (i : EReg) (v : Nat) : (s.writeE i v).flags = s.flags := rfl
@[simp] theorem writeE_scratch (s : State) (i : EReg) (v : Nat) : (s.writeE i v).scratch = s.scratch := rfl
@[simp] theorem writeE_ieDone (s : State) (i : EReg) (v : Nat) : (s.writeE i v).ieDone = s.ieDone := rfl
@[simp] theorem writeE_ieErr (s : State) (i : EReg) (v : Nat) : (s.writeE i v).ieErr = s.ieErr := rfl
@[simp] theorem writeE_busy (s : State) (i : EReg) (v : Nat) : (s.writeE i v).busy = s.busy := rfl
@[simp] theorem writeE_done (s : State) (i : EReg) (v : Nat) : (s.writeE i v).done = s.done := rfl
@[simp] theorem writeE_err (s : State) (i : EReg) (v : Nat) : (s.writeE i v).err = s.err := rfl
@[simp] theorem writeE_errCode (s : State) (i : EReg) (v : Nat) : (s.writeE i v).errCode = s.errCode := rfl
@[simp] theorem writeE_errInfo (s : State) (i : EReg) (v : Nat) : (s.writeE i v).errInfo = s.errInfo := rfl
@[simp] theorem writeE_argAddr (s : State) (i : EReg) (v : Nat) : (s.writeE i v).argAddr = s.argAddr := rfl
@[simp] theorem writeE_argLen (s : State) (i : EReg) (v : Nat) : (s.writeE i v).argLen = s.argLen := rfl
@[simp] theorem writeE_cmdL (s : State) (i : EReg) (v : Nat) : (s.writeE i v).cmdL = s.cmdL := rfl
@[simp] theorem writeE_addrL (s : State) (i : EReg) (v : Nat) : (s.writeE i v).addrL = s.addrL := rfl
@[simp] theorem writeE_lenL (s : State) (i : EReg) (v : Nat) : (s.writeE i v).lenL = s.lenL := rfl
@[simp] theorem writeE_schedule (s : State) (i : EReg) (v : Nat) : (s.writeE i v).schedule = s.schedule := rfl
@[simp] theorem writeE_readData (s : State) (i : EReg) (v : Nat) : (s.writeE i v).readData = s.readData := rfl
@[simp] theorem writeE_draws (s : State) (i : EReg) (v : Nat) : (s.writeE i v).draws = s.draws := rfl

/-! ### writeField -/

@[simp] theorem writeField_sponge (s : State) (rd : EReg) (v : Nat) : (s.writeField rd v).sponge = s.sponge := rfl
@[simp] theorem writeField_e (s : State) (rd : EReg) (v : Nat) : (s.writeField rd v).e = s.e.set rd (BitVec.ofNat 256 v) := rfl
@[simp] theorem writeField_flags (s : State) (rd : EReg) (v : Nat) : (s.writeField rd v).flags = { s.flags with z := decide (v = 0) } := rfl
@[simp] theorem writeField_scratch (s : State) (rd : EReg) (v : Nat) : (s.writeField rd v).scratch = s.scratch := rfl
@[simp] theorem writeField_ieDone (s : State) (rd : EReg) (v : Nat) : (s.writeField rd v).ieDone = s.ieDone := rfl
@[simp] theorem writeField_ieErr (s : State) (rd : EReg) (v : Nat) : (s.writeField rd v).ieErr = s.ieErr := rfl
@[simp] theorem writeField_busy (s : State) (rd : EReg) (v : Nat) : (s.writeField rd v).busy = s.busy := rfl
@[simp] theorem writeField_done (s : State) (rd : EReg) (v : Nat) : (s.writeField rd v).done = s.done := rfl
@[simp] theorem writeField_err (s : State) (rd : EReg) (v : Nat) : (s.writeField rd v).err = s.err := rfl
@[simp] theorem writeField_errCode (s : State) (rd : EReg) (v : Nat) : (s.writeField rd v).errCode = s.errCode := rfl
@[simp] theorem writeField_errInfo (s : State) (rd : EReg) (v : Nat) : (s.writeField rd v).errInfo = s.errInfo := rfl
@[simp] theorem writeField_argAddr (s : State) (rd : EReg) (v : Nat) : (s.writeField rd v).argAddr = s.argAddr := rfl
@[simp] theorem writeField_argLen (s : State) (rd : EReg) (v : Nat) : (s.writeField rd v).argLen = s.argLen := rfl
@[simp] theorem writeField_cmdL (s : State) (rd : EReg) (v : Nat) : (s.writeField rd v).cmdL = s.cmdL := rfl
@[simp] theorem writeField_addrL (s : State) (rd : EReg) (v : Nat) : (s.writeField rd v).addrL = s.addrL := rfl
@[simp] theorem writeField_lenL (s : State) (rd : EReg) (v : Nat) : (s.writeField rd v).lenL = s.lenL := rfl
@[simp] theorem writeField_schedule (s : State) (rd : EReg) (v : Nat) : (s.writeField rd v).schedule = s.schedule := rfl
@[simp] theorem writeField_readData (s : State) (rd : EReg) (v : Nat) : (s.writeField rd v).readData = s.readData := rfl
@[simp] theorem writeField_draws (s : State) (rd : EReg) (v : Nat) : (s.writeField rd v).draws = s.draws := rfl

/-! ### setIso -/

@[simp] theorem setIso_sponge (s : State) (q : Point) : (s.setIso q).sponge = s.sponge := rfl
@[simp] theorem setIso_e (s : State) (q : Point) : (s.setIso q).e = s.e := rfl
@[simp] theorem setIso_flags (s : State) (q : Point) : (s.setIso q).flags = { s.flags with iso := decide (q = neutral) } := rfl
@[simp] theorem setIso_scratch (s : State) (q : Point) : (s.setIso q).scratch = s.scratch := rfl
@[simp] theorem setIso_ieDone (s : State) (q : Point) : (s.setIso q).ieDone = s.ieDone := rfl
@[simp] theorem setIso_ieErr (s : State) (q : Point) : (s.setIso q).ieErr = s.ieErr := rfl
@[simp] theorem setIso_busy (s : State) (q : Point) : (s.setIso q).busy = s.busy := rfl
@[simp] theorem setIso_done (s : State) (q : Point) : (s.setIso q).done = s.done := rfl
@[simp] theorem setIso_err (s : State) (q : Point) : (s.setIso q).err = s.err := rfl
@[simp] theorem setIso_errCode (s : State) (q : Point) : (s.setIso q).errCode = s.errCode := rfl
@[simp] theorem setIso_errInfo (s : State) (q : Point) : (s.setIso q).errInfo = s.errInfo := rfl
@[simp] theorem setIso_argAddr (s : State) (q : Point) : (s.setIso q).argAddr = s.argAddr := rfl
@[simp] theorem setIso_argLen (s : State) (q : Point) : (s.setIso q).argLen = s.argLen := rfl
@[simp] theorem setIso_cmdL (s : State) (q : Point) : (s.setIso q).cmdL = s.cmdL := rfl
@[simp] theorem setIso_addrL (s : State) (q : Point) : (s.setIso q).addrL = s.addrL := rfl
@[simp] theorem setIso_lenL (s : State) (q : Point) : (s.setIso q).lenL = s.lenL := rfl
@[simp] theorem setIso_schedule (s : State) (q : Point) : (s.setIso q).schedule = s.schedule := rfl
@[simp] theorem setIso_readData (s : State) (q : Point) : (s.setIso q).readData = s.readData := rfl
@[simp] theorem setIso_draws (s : State) (q : Point) : (s.setIso q).draws = s.draws := rfl

/-! ### setEq -/

@[simp] theorem setEq_sponge (s : State) (b : Bool) : (s.setEq b).sponge = s.sponge := rfl
@[simp] theorem setEq_e (s : State) (b : Bool) : (s.setEq b).e = s.e := rfl
@[simp] theorem setEq_flags (s : State) (b : Bool) : (s.setEq b).flags = { s.flags with eq := b } := rfl
@[simp] theorem setEq_scratch (s : State) (b : Bool) : (s.setEq b).scratch = s.scratch := rfl
@[simp] theorem setEq_ieDone (s : State) (b : Bool) : (s.setEq b).ieDone = s.ieDone := rfl
@[simp] theorem setEq_ieErr (s : State) (b : Bool) : (s.setEq b).ieErr = s.ieErr := rfl
@[simp] theorem setEq_busy (s : State) (b : Bool) : (s.setEq b).busy = s.busy := rfl
@[simp] theorem setEq_done (s : State) (b : Bool) : (s.setEq b).done = s.done := rfl
@[simp] theorem setEq_err (s : State) (b : Bool) : (s.setEq b).err = s.err := rfl
@[simp] theorem setEq_errCode (s : State) (b : Bool) : (s.setEq b).errCode = s.errCode := rfl
@[simp] theorem setEq_errInfo (s : State) (b : Bool) : (s.setEq b).errInfo = s.errInfo := rfl
@[simp] theorem setEq_argAddr (s : State) (b : Bool) : (s.setEq b).argAddr = s.argAddr := rfl
@[simp] theorem setEq_argLen (s : State) (b : Bool) : (s.setEq b).argLen = s.argLen := rfl
@[simp] theorem setEq_cmdL (s : State) (b : Bool) : (s.setEq b).cmdL = s.cmdL := rfl
@[simp] theorem setEq_addrL (s : State) (b : Bool) : (s.setEq b).addrL = s.addrL := rfl
@[simp] theorem setEq_lenL (s : State) (b : Bool) : (s.setEq b).lenL = s.lenL := rfl
@[simp] theorem setEq_schedule (s : State) (b : Bool) : (s.setEq b).schedule = s.schedule := rfl
@[simp] theorem setEq_readData (s : State) (b : Bool) : (s.setEq b).readData = s.readData := rfl
@[simp] theorem setEq_draws (s : State) (b : Bool) : (s.setEq b).draws = s.draws := rfl

/-! ### setOnc -/

@[simp] theorem setOnc_sponge (s : State) (b : Bool) : (s.setOnc b).sponge = s.sponge := rfl
@[simp] theorem setOnc_e (s : State) (b : Bool) : (s.setOnc b).e = s.e := rfl
@[simp] theorem setOnc_flags (s : State) (b : Bool) : (s.setOnc b).flags = { s.flags with onc := b } := rfl
@[simp] theorem setOnc_scratch (s : State) (b : Bool) : (s.setOnc b).scratch = s.scratch := rfl
@[simp] theorem setOnc_ieDone (s : State) (b : Bool) : (s.setOnc b).ieDone = s.ieDone := rfl
@[simp] theorem setOnc_ieErr (s : State) (b : Bool) : (s.setOnc b).ieErr = s.ieErr := rfl
@[simp] theorem setOnc_busy (s : State) (b : Bool) : (s.setOnc b).busy = s.busy := rfl
@[simp] theorem setOnc_done (s : State) (b : Bool) : (s.setOnc b).done = s.done := rfl
@[simp] theorem setOnc_err (s : State) (b : Bool) : (s.setOnc b).err = s.err := rfl
@[simp] theorem setOnc_errCode (s : State) (b : Bool) : (s.setOnc b).errCode = s.errCode := rfl
@[simp] theorem setOnc_errInfo (s : State) (b : Bool) : (s.setOnc b).errInfo = s.errInfo := rfl
@[simp] theorem setOnc_argAddr (s : State) (b : Bool) : (s.setOnc b).argAddr = s.argAddr := rfl
@[simp] theorem setOnc_argLen (s : State) (b : Bool) : (s.setOnc b).argLen = s.argLen := rfl
@[simp] theorem setOnc_cmdL (s : State) (b : Bool) : (s.setOnc b).cmdL = s.cmdL := rfl
@[simp] theorem setOnc_addrL (s : State) (b : Bool) : (s.setOnc b).addrL = s.addrL := rfl
@[simp] theorem setOnc_lenL (s : State) (b : Bool) : (s.setOnc b).lenL = s.lenL := rfl
@[simp] theorem setOnc_schedule (s : State) (b : Bool) : (s.setOnc b).schedule = s.schedule := rfl
@[simp] theorem setOnc_readData (s : State) (b : Bool) : (s.setOnc b).readData = s.readData := rfl
@[simp] theorem setOnc_draws (s : State) (b : Bool) : (s.setOnc b).draws = s.draws := rfl

/-! ### setXlsb -/

@[simp] theorem setXlsb_sponge (s : State) (b : Bool) : (s.setXlsb b).sponge = s.sponge := rfl
@[simp] theorem setXlsb_e (s : State) (b : Bool) : (s.setXlsb b).e = s.e := rfl
@[simp] theorem setXlsb_flags (s : State) (b : Bool) : (s.setXlsb b).flags = { s.flags with xlsb := b } := rfl
@[simp] theorem setXlsb_scratch (s : State) (b : Bool) : (s.setXlsb b).scratch = s.scratch := rfl
@[simp] theorem setXlsb_ieDone (s : State) (b : Bool) : (s.setXlsb b).ieDone = s.ieDone := rfl
@[simp] theorem setXlsb_ieErr (s : State) (b : Bool) : (s.setXlsb b).ieErr = s.ieErr := rfl
@[simp] theorem setXlsb_busy (s : State) (b : Bool) : (s.setXlsb b).busy = s.busy := rfl
@[simp] theorem setXlsb_done (s : State) (b : Bool) : (s.setXlsb b).done = s.done := rfl
@[simp] theorem setXlsb_err (s : State) (b : Bool) : (s.setXlsb b).err = s.err := rfl
@[simp] theorem setXlsb_errCode (s : State) (b : Bool) : (s.setXlsb b).errCode = s.errCode := rfl
@[simp] theorem setXlsb_errInfo (s : State) (b : Bool) : (s.setXlsb b).errInfo = s.errInfo := rfl
@[simp] theorem setXlsb_argAddr (s : State) (b : Bool) : (s.setXlsb b).argAddr = s.argAddr := rfl
@[simp] theorem setXlsb_argLen (s : State) (b : Bool) : (s.setXlsb b).argLen = s.argLen := rfl
@[simp] theorem setXlsb_cmdL (s : State) (b : Bool) : (s.setXlsb b).cmdL = s.cmdL := rfl
@[simp] theorem setXlsb_addrL (s : State) (b : Bool) : (s.setXlsb b).addrL = s.addrL := rfl
@[simp] theorem setXlsb_lenL (s : State) (b : Bool) : (s.setXlsb b).lenL = s.lenL := rfl
@[simp] theorem setXlsb_schedule (s : State) (b : Bool) : (s.setXlsb b).schedule = s.schedule := rfl
@[simp] theorem setXlsb_readData (s : State) (b : Bool) : (s.setXlsb b).readData = s.readData := rfl
@[simp] theorem setXlsb_draws (s : State) (b : Bool) : (s.setXlsb b).draws = s.draws := rfl

/-! ### setNoroot -/

@[simp] theorem setNoroot_sponge (s : State) (b : Bool) : (s.setNoroot b).sponge = s.sponge := rfl
@[simp] theorem setNoroot_e (s : State) (b : Bool) : (s.setNoroot b).e = s.e := rfl
@[simp] theorem setNoroot_flags (s : State) (b : Bool) : (s.setNoroot b).flags = { s.flags with noroot := b } := rfl
@[simp] theorem setNoroot_scratch (s : State) (b : Bool) : (s.setNoroot b).scratch = s.scratch := rfl
@[simp] theorem setNoroot_ieDone (s : State) (b : Bool) : (s.setNoroot b).ieDone = s.ieDone := rfl
@[simp] theorem setNoroot_ieErr (s : State) (b : Bool) : (s.setNoroot b).ieErr = s.ieErr := rfl
@[simp] theorem setNoroot_busy (s : State) (b : Bool) : (s.setNoroot b).busy = s.busy := rfl
@[simp] theorem setNoroot_done (s : State) (b : Bool) : (s.setNoroot b).done = s.done := rfl
@[simp] theorem setNoroot_err (s : State) (b : Bool) : (s.setNoroot b).err = s.err := rfl
@[simp] theorem setNoroot_errCode (s : State) (b : Bool) : (s.setNoroot b).errCode = s.errCode := rfl
@[simp] theorem setNoroot_errInfo (s : State) (b : Bool) : (s.setNoroot b).errInfo = s.errInfo := rfl
@[simp] theorem setNoroot_argAddr (s : State) (b : Bool) : (s.setNoroot b).argAddr = s.argAddr := rfl
@[simp] theorem setNoroot_argLen (s : State) (b : Bool) : (s.setNoroot b).argLen = s.argLen := rfl
@[simp] theorem setNoroot_cmdL (s : State) (b : Bool) : (s.setNoroot b).cmdL = s.cmdL := rfl
@[simp] theorem setNoroot_addrL (s : State) (b : Bool) : (s.setNoroot b).addrL = s.addrL := rfl
@[simp] theorem setNoroot_lenL (s : State) (b : Bool) : (s.setNoroot b).lenL = s.lenL := rfl
@[simp] theorem setNoroot_schedule (s : State) (b : Bool) : (s.setNoroot b).schedule = s.schedule := rfl
@[simp] theorem setNoroot_readData (s : State) (b : Bool) : (s.setNoroot b).readData = s.readData := rfl
@[simp] theorem setNoroot_draws (s : State) (b : Bool) : (s.setNoroot b).draws = s.draws := rfl

/-! ### setNotors -/

@[simp] theorem setNotors_sponge (s : State) (b : Bool) : (s.setNotors b).sponge = s.sponge := rfl
@[simp] theorem setNotors_e (s : State) (b : Bool) : (s.setNotors b).e = s.e := rfl
@[simp] theorem setNotors_flags (s : State) (b : Bool) : (s.setNotors b).flags = { s.flags with notors := b } := rfl
@[simp] theorem setNotors_scratch (s : State) (b : Bool) : (s.setNotors b).scratch = s.scratch := rfl
@[simp] theorem setNotors_ieDone (s : State) (b : Bool) : (s.setNotors b).ieDone = s.ieDone := rfl
@[simp] theorem setNotors_ieErr (s : State) (b : Bool) : (s.setNotors b).ieErr = s.ieErr := rfl
@[simp] theorem setNotors_busy (s : State) (b : Bool) : (s.setNotors b).busy = s.busy := rfl
@[simp] theorem setNotors_done (s : State) (b : Bool) : (s.setNotors b).done = s.done := rfl
@[simp] theorem setNotors_err (s : State) (b : Bool) : (s.setNotors b).err = s.err := rfl
@[simp] theorem setNotors_errCode (s : State) (b : Bool) : (s.setNotors b).errCode = s.errCode := rfl
@[simp] theorem setNotors_errInfo (s : State) (b : Bool) : (s.setNotors b).errInfo = s.errInfo := rfl
@[simp] theorem setNotors_argAddr (s : State) (b : Bool) : (s.setNotors b).argAddr = s.argAddr := rfl
@[simp] theorem setNotors_argLen (s : State) (b : Bool) : (s.setNotors b).argLen = s.argLen := rfl
@[simp] theorem setNotors_cmdL (s : State) (b : Bool) : (s.setNotors b).cmdL = s.cmdL := rfl
@[simp] theorem setNotors_addrL (s : State) (b : Bool) : (s.setNotors b).addrL = s.addrL := rfl
@[simp] theorem setNotors_lenL (s : State) (b : Bool) : (s.setNotors b).lenL = s.lenL := rfl
@[simp] theorem setNotors_schedule (s : State) (b : Bool) : (s.setNotors b).schedule = s.schedule := rfl
@[simp] theorem setNotors_readData (s : State) (b : Bool) : (s.setNotors b).readData = s.readData := rfl
@[simp] theorem setNotors_draws (s : State) (b : Bool) : (s.setNotors b).draws = s.draws := rfl

/-! ### writePoint -/

@[simp] theorem writePoint_sponge (s : State) (k : PReg) (q : Point) : (s.writePoint k q).sponge = s.sponge := rfl
@[simp] theorem writePoint_e (s : State) (k : PReg) (q : Point) : (s.writePoint k q).e = (s.e.set (xReg k) (BitVec.ofNat 256 q.1)).set (yReg k) (BitVec.ofNat 256 q.2) := rfl
@[simp] theorem writePoint_flags (s : State) (k : PReg) (q : Point) : (s.writePoint k q).flags = { s.flags with iso := decide (q = neutral) } := rfl
@[simp] theorem writePoint_scratch (s : State) (k : PReg) (q : Point) : (s.writePoint k q).scratch = s.scratch := rfl
@[simp] theorem writePoint_ieDone (s : State) (k : PReg) (q : Point) : (s.writePoint k q).ieDone = s.ieDone := rfl
@[simp] theorem writePoint_ieErr (s : State) (k : PReg) (q : Point) : (s.writePoint k q).ieErr = s.ieErr := rfl
@[simp] theorem writePoint_busy (s : State) (k : PReg) (q : Point) : (s.writePoint k q).busy = s.busy := rfl
@[simp] theorem writePoint_done (s : State) (k : PReg) (q : Point) : (s.writePoint k q).done = s.done := rfl
@[simp] theorem writePoint_err (s : State) (k : PReg) (q : Point) : (s.writePoint k q).err = s.err := rfl
@[simp] theorem writePoint_errCode (s : State) (k : PReg) (q : Point) : (s.writePoint k q).errCode = s.errCode := rfl
@[simp] theorem writePoint_errInfo (s : State) (k : PReg) (q : Point) : (s.writePoint k q).errInfo = s.errInfo := rfl
@[simp] theorem writePoint_argAddr (s : State) (k : PReg) (q : Point) : (s.writePoint k q).argAddr = s.argAddr := rfl
@[simp] theorem writePoint_argLen (s : State) (k : PReg) (q : Point) : (s.writePoint k q).argLen = s.argLen := rfl
@[simp] theorem writePoint_cmdL (s : State) (k : PReg) (q : Point) : (s.writePoint k q).cmdL = s.cmdL := rfl
@[simp] theorem writePoint_addrL (s : State) (k : PReg) (q : Point) : (s.writePoint k q).addrL = s.addrL := rfl
@[simp] theorem writePoint_lenL (s : State) (k : PReg) (q : Point) : (s.writePoint k q).lenL = s.lenL := rfl
@[simp] theorem writePoint_schedule (s : State) (k : PReg) (q : Point) : (s.writePoint k q).schedule = s.schedule := rfl
@[simp] theorem writePoint_readData (s : State) (k : PReg) (q : Point) : (s.writePoint k q).readData = s.readData := rfl
@[simp] theorem writePoint_draws (s : State) (k : PReg) (q : Point) : (s.writePoint k q).draws = s.draws := rfl

/-! ### finishStep -/

@[simp] theorem finishStep_sponge (s : State) : (s.finishStep).sponge = s.sponge := rfl
@[simp] theorem finishStep_e (s : State) : (s.finishStep).e = s.e := rfl
@[simp] theorem finishStep_flags (s : State) : (s.finishStep).flags = s.flags := rfl
@[simp] theorem finishStep_scratch (s : State) : (s.finishStep).scratch = s.scratch := rfl
@[simp] theorem finishStep_ieDone (s : State) : (s.finishStep).ieDone = s.ieDone := rfl
@[simp] theorem finishStep_ieErr (s : State) : (s.finishStep).ieErr = s.ieErr := rfl
@[simp] theorem finishStep_busy (s : State) : (s.finishStep).busy = false := rfl
@[simp] theorem finishStep_done (s : State) : (s.finishStep).done = true := rfl
@[simp] theorem finishStep_err (s : State) : (s.finishStep).err = s.err := rfl
@[simp] theorem finishStep_errCode (s : State) : (s.finishStep).errCode = s.errCode := rfl
@[simp] theorem finishStep_errInfo (s : State) : (s.finishStep).errInfo = s.errInfo := rfl
@[simp] theorem finishStep_argAddr (s : State) : (s.finishStep).argAddr = s.argAddr := rfl
@[simp] theorem finishStep_argLen (s : State) : (s.finishStep).argLen = s.argLen := rfl
@[simp] theorem finishStep_cmdL (s : State) : (s.finishStep).cmdL = s.cmdL := rfl
@[simp] theorem finishStep_addrL (s : State) : (s.finishStep).addrL = s.addrL := rfl
@[simp] theorem finishStep_lenL (s : State) : (s.finishStep).lenL = s.lenL := rfl
@[simp] theorem finishStep_schedule (s : State) : (s.finishStep).schedule = s.schedule := rfl
@[simp] theorem finishStep_readData (s : State) : (s.finishStep).readData = s.readData := rfl
@[simp] theorem finishStep_draws (s : State) : (s.finishStep).draws = s.draws := rfl

/-! ### acceptCommand -/

@[simp] theorem acceptCommand_sponge (s : State) (w : Word) : (s.acceptCommand w).sponge = s.sponge := rfl
@[simp] theorem acceptCommand_e (s : State) (w : Word) : (s.acceptCommand w).e = s.e := rfl
@[simp] theorem acceptCommand_flags (s : State) (w : Word) : (s.acceptCommand w).flags = s.flags := rfl
@[simp] theorem acceptCommand_scratch (s : State) (w : Word) : (s.acceptCommand w).scratch = s.scratch := rfl
@[simp] theorem acceptCommand_ieDone (s : State) (w : Word) : (s.acceptCommand w).ieDone = s.ieDone := rfl
@[simp] theorem acceptCommand_ieErr (s : State) (w : Word) : (s.acceptCommand w).ieErr = s.ieErr := rfl
@[simp] theorem acceptCommand_busy (s : State) (w : Word) : (s.acceptCommand w).busy = true := rfl
@[simp] theorem acceptCommand_done (s : State) (w : Word) : (s.acceptCommand w).done = false := rfl
@[simp] theorem acceptCommand_err (s : State) (w : Word) : (s.acceptCommand w).err = s.err := rfl
@[simp] theorem acceptCommand_errCode (s : State) (w : Word) : (s.acceptCommand w).errCode = s.errCode := rfl
@[simp] theorem acceptCommand_errInfo (s : State) (w : Word) : (s.acceptCommand w).errInfo = s.errInfo := rfl
@[simp] theorem acceptCommand_argAddr (s : State) (w : Word) : (s.acceptCommand w).argAddr = s.argAddr := rfl
@[simp] theorem acceptCommand_argLen (s : State) (w : Word) : (s.acceptCommand w).argLen = s.argLen := rfl
@[simp] theorem acceptCommand_cmdL (s : State) (w : Word) : (s.acceptCommand w).cmdL = w := rfl
@[simp] theorem acceptCommand_addrL (s : State) (w : Word) : (s.acceptCommand w).addrL = s.argAddr := rfl
@[simp] theorem acceptCommand_lenL (s : State) (w : Word) : (s.acceptCommand w).lenL = s.argLen := rfl
@[simp] theorem acceptCommand_schedule (s : State) (w : Word) : (s.acceptCommand w).schedule = s.schedule := rfl
@[simp] theorem acceptCommand_readData (s : State) (w : Word) : (s.acceptCommand w).readData = s.readData := rfl
@[simp] theorem acceptCommand_draws (s : State) (w : Word) : (s.acceptCommand w).draws = s.draws := rfl

/-! ### clearError -/

@[simp] theorem clearError_sponge (s : State) : (s.clearError).sponge = s.sponge := rfl
@[simp] theorem clearError_e (s : State) : (s.clearError).e = s.e := rfl
@[simp] theorem clearError_flags (s : State) : (s.clearError).flags = s.flags := rfl
@[simp] theorem clearError_scratch (s : State) : (s.clearError).scratch = s.scratch := rfl
@[simp] theorem clearError_ieDone (s : State) : (s.clearError).ieDone = s.ieDone := rfl
@[simp] theorem clearError_ieErr (s : State) : (s.clearError).ieErr = s.ieErr := rfl
@[simp] theorem clearError_busy (s : State) : (s.clearError).busy = s.busy := rfl
@[simp] theorem clearError_done (s : State) : (s.clearError).done = s.done := rfl
@[simp] theorem clearError_err (s : State) : (s.clearError).err = false := rfl
@[simp] theorem clearError_errCode (s : State) : (s.clearError).errCode = none := rfl
@[simp] theorem clearError_errInfo (s : State) : (s.clearError).errInfo = 0 := rfl
@[simp] theorem clearError_argAddr (s : State) : (s.clearError).argAddr = s.argAddr := rfl
@[simp] theorem clearError_argLen (s : State) : (s.clearError).argLen = s.argLen := rfl
@[simp] theorem clearError_cmdL (s : State) : (s.clearError).cmdL = s.cmdL := rfl
@[simp] theorem clearError_addrL (s : State) : (s.clearError).addrL = s.addrL := rfl
@[simp] theorem clearError_lenL (s : State) : (s.clearError).lenL = s.lenL := rfl
@[simp] theorem clearError_schedule (s : State) : (s.clearError).schedule = s.schedule := rfl
@[simp] theorem clearError_readData (s : State) : (s.clearError).readData = s.readData := rfl
@[simp] theorem clearError_draws (s : State) : (s.clearError).draws = s.draws := rfl

/-! ### withCommand -/

@[simp] theorem withCommand_sponge (s : State) (w : Word) : (s.withCommand w).sponge = s.sponge := rfl
@[simp] theorem withCommand_e (s : State) (w : Word) : (s.withCommand w).e = s.e := rfl
@[simp] theorem withCommand_flags (s : State) (w : Word) : (s.withCommand w).flags = s.flags := rfl
@[simp] theorem withCommand_scratch (s : State) (w : Word) : (s.withCommand w).scratch = s.scratch := rfl
@[simp] theorem withCommand_ieDone (s : State) (w : Word) : (s.withCommand w).ieDone = s.ieDone := rfl
@[simp] theorem withCommand_ieErr (s : State) (w : Word) : (s.withCommand w).ieErr = s.ieErr := rfl
@[simp] theorem withCommand_busy (s : State) (w : Word) : (s.withCommand w).busy = true := rfl
@[simp] theorem withCommand_done (s : State) (w : Word) : (s.withCommand w).done = false := rfl
@[simp] theorem withCommand_err (s : State) (w : Word) : (s.withCommand w).err = s.err := rfl
@[simp] theorem withCommand_errCode (s : State) (w : Word) : (s.withCommand w).errCode = s.errCode := rfl
@[simp] theorem withCommand_errInfo (s : State) (w : Word) : (s.withCommand w).errInfo = s.errInfo := rfl
@[simp] theorem withCommand_argAddr (s : State) (w : Word) : (s.withCommand w).argAddr = s.argAddr := rfl
@[simp] theorem withCommand_argLen (s : State) (w : Word) : (s.withCommand w).argLen = s.argLen := rfl
@[simp] theorem withCommand_cmdL (s : State) (w : Word) : (s.withCommand w).cmdL = w := rfl
@[simp] theorem withCommand_addrL (s : State) (w : Word) : (s.withCommand w).addrL = s.argAddr := rfl
@[simp] theorem withCommand_lenL (s : State) (w : Word) : (s.withCommand w).lenL = s.argLen := rfl
@[simp] theorem withCommand_schedule (s : State) (w : Word) : (s.withCommand w).schedule = .engine :: s.schedule := rfl
@[simp] theorem withCommand_readData (s : State) (w : Word) : (s.withCommand w).readData = s.readData := rfl
@[simp] theorem withCommand_draws (s : State) (w : Word) : (s.withCommand w).draws = s.draws := rfl

/-! ### hardReset -/

@[simp] theorem hardReset_sponge (s : State) : s.hardReset.sponge = resetSponge := rfl
@[simp] theorem hardReset_e (s : State) : s.hardReset.e = Vector.replicate 16 0 := rfl
@[simp] theorem hardReset_flags (s : State) : s.hardReset.flags = ⟨false, false, false, false, false, false, false⟩ := rfl
@[simp] theorem hardReset_scratch (s : State) : s.hardReset.scratch = [] := rfl
@[simp] theorem hardReset_ieDone (s : State) : s.hardReset.ieDone = false := rfl
@[simp] theorem hardReset_ieErr (s : State) : s.hardReset.ieErr = false := rfl
@[simp] theorem hardReset_busy (s : State) : s.hardReset.busy = false := rfl
@[simp] theorem hardReset_done (s : State) : s.hardReset.done = false := rfl
@[simp] theorem hardReset_err (s : State) : s.hardReset.err = false := rfl
@[simp] theorem hardReset_errCode (s : State) : s.hardReset.errCode = none := rfl
@[simp] theorem hardReset_errInfo (s : State) : s.hardReset.errInfo = 0 := rfl
@[simp] theorem hardReset_argAddr (s : State) : s.hardReset.argAddr = 0 := rfl
@[simp] theorem hardReset_argLen (s : State) : s.hardReset.argLen = 0 := rfl
@[simp] theorem hardReset_cmdL (s : State) : s.hardReset.cmdL = 0 := rfl
@[simp] theorem hardReset_addrL (s : State) : s.hardReset.addrL = 0 := rfl
@[simp] theorem hardReset_lenL (s : State) : s.hardReset.lenL = 0 := rfl
@[simp] theorem hardReset_schedule (s : State) : s.hardReset.schedule = s.schedule := rfl
@[simp] theorem hardReset_readData (s : State) : s.hardReset.readData = s.readData := rfl
@[simp] theorem hardReset_draws (s : State) : s.hardReset.draws = s.draws := rfl

/-! ### softReset -/

@[simp] theorem softReset_sponge (s : State) : s.softReset.sponge = resetSponge := rfl
@[simp] theorem softReset_e (s : State) : s.softReset.e = Vector.replicate 16 0 := rfl
@[simp] theorem softReset_flags (s : State) : s.softReset.flags = ⟨false, false, false, false, false, false, false⟩ := rfl
@[simp] theorem softReset_scratch (s : State) : s.softReset.scratch = s.scratch := rfl
@[simp] theorem softReset_ieDone (s : State) : s.softReset.ieDone = false := rfl
@[simp] theorem softReset_ieErr (s : State) : s.softReset.ieErr = false := rfl
@[simp] theorem softReset_busy (s : State) : s.softReset.busy = false := rfl
@[simp] theorem softReset_done (s : State) : s.softReset.done = false := rfl
@[simp] theorem softReset_err (s : State) : s.softReset.err = false := rfl
@[simp] theorem softReset_errCode (s : State) : s.softReset.errCode = none := rfl
@[simp] theorem softReset_errInfo (s : State) : s.softReset.errInfo = 0 := rfl
@[simp] theorem softReset_argAddr (s : State) : s.softReset.argAddr = 0 := rfl
@[simp] theorem softReset_argLen (s : State) : s.softReset.argLen = 0 := rfl
@[simp] theorem softReset_cmdL (s : State) : s.softReset.cmdL = 0 := rfl
@[simp] theorem softReset_addrL (s : State) : s.softReset.addrL = 0 := rfl
@[simp] theorem softReset_lenL (s : State) : s.softReset.lenL = 0 := rfl
@[simp] theorem softReset_schedule (s : State) : s.softReset.schedule = s.schedule := rfl
@[simp] theorem softReset_readData (s : State) : s.softReset.readData = s.readData := rfl
@[simp] theorem softReset_draws (s : State) : s.softReset.draws = s.draws := rfl

/-! ### recordError -/

@[simp] theorem recordError_sponge (s : State) (x : ErrorName) (info : Word) : (s.recordError x info).sponge = s.sponge := by
  unfold State.recordError; split <;> rfl
@[simp] theorem recordError_e (s : State) (x : ErrorName) (info : Word) : (s.recordError x info).e = s.e := by
  unfold State.recordError; split <;> rfl
@[simp] theorem recordError_flags (s : State) (x : ErrorName) (info : Word) : (s.recordError x info).flags = s.flags := by
  unfold State.recordError; split <;> rfl
@[simp] theorem recordError_scratch (s : State) (x : ErrorName) (info : Word) : (s.recordError x info).scratch = s.scratch := by
  unfold State.recordError; split <;> rfl
@[simp] theorem recordError_ieDone (s : State) (x : ErrorName) (info : Word) : (s.recordError x info).ieDone = s.ieDone := by
  unfold State.recordError; split <;> rfl
@[simp] theorem recordError_ieErr (s : State) (x : ErrorName) (info : Word) : (s.recordError x info).ieErr = s.ieErr := by
  unfold State.recordError; split <;> rfl
@[simp] theorem recordError_busy (s : State) (x : ErrorName) (info : Word) : (s.recordError x info).busy = s.busy := by
  unfold State.recordError; split <;> rfl
@[simp] theorem recordError_done (s : State) (x : ErrorName) (info : Word) : (s.recordError x info).done = s.done := by
  unfold State.recordError; split <;> rfl
@[simp] theorem recordError_argAddr (s : State) (x : ErrorName) (info : Word) : (s.recordError x info).argAddr = s.argAddr := by
  unfold State.recordError; split <;> rfl
@[simp] theorem recordError_argLen (s : State) (x : ErrorName) (info : Word) : (s.recordError x info).argLen = s.argLen := by
  unfold State.recordError; split <;> rfl
@[simp] theorem recordError_cmdL (s : State) (x : ErrorName) (info : Word) : (s.recordError x info).cmdL = s.cmdL := by
  unfold State.recordError; split <;> rfl
@[simp] theorem recordError_addrL (s : State) (x : ErrorName) (info : Word) : (s.recordError x info).addrL = s.addrL := by
  unfold State.recordError; split <;> rfl
@[simp] theorem recordError_lenL (s : State) (x : ErrorName) (info : Word) : (s.recordError x info).lenL = s.lenL := by
  unfold State.recordError; split <;> rfl
@[simp] theorem recordError_schedule (s : State) (x : ErrorName) (info : Word) : (s.recordError x info).schedule = s.schedule := by
  unfold State.recordError; split <;> rfl
@[simp] theorem recordError_readData (s : State) (x : ErrorName) (info : Word) : (s.recordError x info).readData = s.readData := by
  unfold State.recordError; split <;> rfl
@[simp] theorem recordError_draws (s : State) (x : ErrorName) (info : Word) : (s.recordError x info).draws = s.draws := by
  unfold State.recordError; split <;> rfl

@[simp] theorem recordError_err (s : State) (x : ErrorName) (info : Word) : (s.recordError x info).err = true := by
  unfold State.recordError; split
  · assumption
  · rfl

/-- Recording an error while one is recorded does nothing (R158). -/
theorem recordError_of_err {s : State} (h : s.err = true) (x : ErrorName) (info : Word) : s.recordError x info = s := by
  simp [State.recordError, h]

/-- Recording the first error sets ERR, ERRCODE and ERRINFO and nothing else (R158). -/
theorem recordError_of_not_err {s : State} (h : s.err = false) (x : ErrorName) (info : Word) :
    s.recordError x info = { s with err := true, errCode := some x, errInfo := info } := by
  simp [State.recordError, h]

end Sys2Proof.Machine
end

