-- ==== Sys2Proof/Laws/Ops.lean ====
section
/-! SUPPORT. What the end of a command, a turn and a step can do, each said once. -/

namespace Sys2Proof.Machine

/-! ### The end of a command -/

@[simp] theorem commit_ok (s t : State) : s.commit (.ok t) = .next t := rfl
@[simp] theorem commit_raise (s : State) (x : ErrorName) :
    s.commit (.error (.raise x)) = .next (s.recordError x s.cmdL) := rfl
@[simp] theorem commit_fault (s : State) (f : Fault) : s.commit (.error (.fault f)) = .fault f := rfl

/-- A command that answers a next state either committed its writes or recorded its error and did nothing else. -/
theorem commit_next {s t : State} {r : Except Stop State} (h : s.commit r = .next t) :
    r = .ok t ∨ ∃ x, r = .error (.raise x) ∧ t = s.recordError x s.cmdL := by
  match r, h with
  | .ok _, h => cases h; exact .inl rfl
  | .error (.raise x), h => cases h; exact .inr ⟨x, rfl, rfl⟩
  | .error (.fault _), h => cases h

/-- No command is refused: a commit answers a next state or a fault. -/
theorem commit_ne_refused (s : State) (r : Except Stop State) (x : Refusal) : s.commit r ≠ .refused x := by
  match r with
  | .ok _ => nofun
  | .error (.raise _) => nofun
  | .error (.fault _) => nofun

/-! ### Element registers -/

/-- Reading an element register after writing one, below 2^256. -/
theorem readE_writeE (s : State) (i j : EReg) {v : Nat} (hv : v < 2 ^ 256) :
    (s.writeE i v).readE j = if j = i then v else s.readE j := by
  simp only [State.readE, State.writeE, Fin.getElem_fin]
  rw [Vector.getElem_set]
  by_cases h : i = j
  · subst h; simpa using hv
  · simp [show i.val ≠ j.val from fun h' => h (Fin.ext h'), Ne.symm h]

/-! ### One step -/

/-- What one step can be: the engine's turn, a host transaction, or a reset, with the schedule moved on. -/
theorem step_cases {s : State} {o : Host.Outcome State Fault Refusal} (h : step s = o) :
    (s.schedule = [] ∧ engineTurn s = o) ∨
    ∃ t rest, s.schedule = t :: rest ∧ takeTurn t { s with schedule := rest } = o := by
  unfold step nextTurn at h
  split at h
  · next he => exact .inl ⟨he, h⟩
  · next t rest he => exact .inr ⟨t, rest, he, h⟩

/-- What the engine's turn can be: nothing while idle, a decode error, or the decoded command completed (R83). -/
theorem engineTurn_cases {s : State} {o : Host.Outcome State Fault Refusal} (h : engineTurn s = o) :
    (s.busy = false ∧ o = .next s) ∨
    (s.busy = true ∧ ∃ x, decode s.cmdL = .error x ∧
      o = .next (s.recordError (decodeErrorName x) s.cmdL).finishStep) ∨
    (s.busy = true ∧ ∃ i, decode s.cmdL = .ok i ∧ o = completed (exec i s)) := by
  unfold engineTurn at h
  split at h
  · next hb =>
    unfold engineStep at h
    split at h
    · next x hx => exact .inr (.inl ⟨hb, x, hx, h.symm⟩)
    · next i hi =>
      refine .inr (.inr ⟨hb, i, hi, ?_⟩)
      rw [← h]
      cases exec i s <;> rfl
  · next hb => exact .inl ⟨by simpa using hb, h.symm⟩

/-- What a host write that answers a next state did: a BusyViolation, or the write (R55). -/
theorem hostWrite_next {off : Offset} {v : Word} {s t : State} (h : hostWrite off v s = .next t) :
    off.toNat % 4 = 0 ∧
    ((isProtected (windowReg off.toNat) = true ∧ s.busy = true ∧ t = s.recordError .busyViolation (off.setWidth 32)) ∨
      ((isProtected (windowReg off.toNat) = false ∨ s.busy = false) ∧ t = s.writeWindow (windowReg off.toNat) v)) := by
  unfold hostWrite at h
  split at h
  · cases h
  · next ha =>
    refine ⟨by simpa using ha, ?_⟩
    split at h
    · next hb =>
      simp only [Bool.and_eq_true] at hb
      cases h; exact .inl ⟨hb.1, hb.2, rfl⟩
    · next hb =>
      cases h
      refine .inr ⟨?_, rfl⟩
      cases hp : isProtected (windowReg off.toNat) <;> cases hs : s.busy <;> simp_all

/-- A host read that answers a next state changed only the model's read channel and counter of draws (R56, R62). -/
theorem hostRead_next {off : Offset} {s t : State} (h : hostRead off s = .next t) :
    t = { s with readData := t.readData, draws := t.draws } := by
  unfold hostRead at h
  split at h
  · cases h
  · split at h
    · cases h; rfl
    · split at h
      · cases h
      · cases h; rfl

end Sys2Proof.Machine
end

