-- ==== Sys2Proof/Laws/PerInstr.lean ====
section
/-! SUPPORT. Statements about every command as syntax, one lemma per constructor. -/

namespace Sys2Proof.Laws

/-- A word made of fields below their widths is below 2^27, has bits 23:22 clear and the opcode in its low byte. -/
theorem encodeFields_layout {op rd rs1 rs2 m l v : Nat} (hop : op < 2 ^ 8) (hrd : rd < 2 ^ 4) (h1 : rs1 < 2 ^ 4)
    (h2 : rs2 < 2 ^ 4) (hm : m < 2) (hl : l < 2) (hv : v < 8) :
    (encodeFields op rd rs1 rs2 m l v).toNat < 2 ^ 27 ∧ (encodeFields op rd rs1 rs2 m l v).toNat / 2 ^ 22 % 4 = 0 ∧
      (encodeFields op rd rs1 rs2 m l v).toNat % 2 ^ 8 = op := by
  simp only [encodeFields, BitVec.toNat_ofNat]
  omega

theorem modulusBit_lt (m : Modulus) : modulusBit m < 2 := by cases m <;> decide

/-- The opcode of a command (R76). -/
def opcodeOf : Instr → Nat
  | .nop => 0x00
  | .kinit _ => 0x10
  | .kabs => 0x11
  | .kfin => 0x12
  | .ksqz => 0x13
  | .kdig => 0x14
  | .kperm => 0x15
  | .krel => 0x16
  | .fadd _ _ _ _ => 0x20
  | .fsub _ _ _ _ => 0x21
  | .fmul _ _ _ _ => 0x22
  | .fpow _ _ _ _ => 0x23
  | .fneg _ _ _ => 0x24
  | .finv _ _ _ => 0x25
  | .fred _ _ _ => 0x26
  | .fsqrt _ _ _ => 0x27
  | .fmov _ _ => 0x28
  | .ldbe _ _ => 0x30
  | .stbe _ => 0x31
  | .pneut _ => 0x40
  | .pgen _ => 0x41
  | .padd _ _ _ => 0x42
  | .pneg _ _ => 0x43
  | .pmul _ _ _ => 0x44
  | .peq _ _ => 0x45
  | .ponc _ => 0x46
  | .pcomp _ _ => 0x47
  | .pdec _ _ _ => 0x48

/-- Every command's word has its opcode in bits 7:0 and 0 in the bits 23:22 and 31:27, reserved for every command (R70,
R76). -/
def EncodedLayout.Statement (i : Instr) : Prop :=
  (encode i).toNat < 2 ^ 27 ∧ (encode i).toNat / 2 ^ 22 % 4 = 0 ∧ (encode i).toNat % 2 ^ 8 = opcodeOf i

theorem EncodedLayout.nop : EncodedLayout.Statement .nop :=
  encodeFields_layout (by decide) (by decide) (by decide) (by decide) (by decide) (by decide) (by decide)
theorem EncodedLayout.kinit (v : BitVec 3) : EncodedLayout.Statement (.kinit v) :=
  encodeFields_layout (by decide) (by decide) (by decide) (by decide) (by decide) (by decide) v.isLt
theorem EncodedLayout.kabs : EncodedLayout.Statement .kabs :=
  encodeFields_layout (by decide) (by decide) (by decide) (by decide) (by decide) (by decide) (by decide)
theorem EncodedLayout.kfin : EncodedLayout.Statement .kfin :=
  encodeFields_layout (by decide) (by decide) (by decide) (by decide) (by decide) (by decide) (by decide)
theorem EncodedLayout.ksqz : EncodedLayout.Statement .ksqz :=
  encodeFields_layout (by decide) (by decide) (by decide) (by decide) (by decide) (by decide) (by decide)
theorem EncodedLayout.kdig : EncodedLayout.Statement .kdig :=
  encodeFields_layout (by decide) (by decide) (by decide) (by decide) (by decide) (by decide) (by decide)
theorem EncodedLayout.kperm : EncodedLayout.Statement .kperm :=
  encodeFields_layout (by decide) (by decide) (by decide) (by decide) (by decide) (by decide) (by decide)
theorem EncodedLayout.krel : EncodedLayout.Statement .krel :=
  encodeFields_layout (by decide) (by decide) (by decide) (by decide) (by decide) (by decide) (by decide)
theorem EncodedLayout.fadd (m : Modulus) (rd : EReg) (rs1 : EReg) (rs2 : EReg) : EncodedLayout.Statement (.fadd m rd rs1 rs2) :=
  encodeFields_layout (by decide) (by omega) (by omega) (by omega) (modulusBit_lt m) (by decide) (by decide)
theorem EncodedLayout.fsub (m : Modulus) (rd : EReg) (rs1 : EReg) (rs2 : EReg) : EncodedLayout.Statement (.fsub m rd rs1 rs2) :=
  encodeFields_layout (by decide) (by omega) (by omega) (by omega) (modulusBit_lt m) (by decide) (by decide)
theorem EncodedLayout.fmul (m : Modulus) (rd : EReg) (rs1 : EReg) (rs2 : EReg) : EncodedLayout.Statement (.fmul m rd rs1 rs2) :=
  encodeFields_layout (by decide) (by omega) (by omega) (by omega) (modulusBit_lt m) (by decide) (by decide)
theorem EncodedLayout.fpow (m : Modulus) (rd : EReg) (rs1 : EReg) (rs2 : EReg) : EncodedLayout.Statement (.fpow m rd rs1 rs2) :=
  encodeFields_layout (by decide) (by omega) (by omega) (by omega) (modulusBit_lt m) (by decide) (by decide)
theorem EncodedLayout.fneg (m : Modulus) (rd : EReg) (rs1 : EReg) : EncodedLayout.Statement (.fneg m rd rs1) :=
  encodeFields_layout (by decide) (by omega) (by omega) (by decide) (modulusBit_lt m) (by decide) (by decide)
theorem EncodedLayout.finv (m : Modulus) (rd : EReg) (rs1 : EReg) : EncodedLayout.Statement (.finv m rd rs1) :=
  encodeFields_layout (by decide) (by omega) (by omega) (by decide) (modulusBit_lt m) (by decide) (by decide)
theorem EncodedLayout.fred (m : Modulus) (rd : EReg) (rs1 : EReg) : EncodedLayout.Statement (.fred m rd rs1) :=
  encodeFields_layout (by decide) (by omega) (by omega) (by decide) (modulusBit_lt m) (by decide) (by decide)
theorem EncodedLayout.fsqrt (rd : EReg) (rs1 : EReg) (lsb : Bool) : EncodedLayout.Statement (.fsqrt rd rs1 lsb) :=
  encodeFields_layout (by decide) (by omega) (by omega) (by decide) (by decide) lsb.toNat_lt (by decide)
theorem EncodedLayout.fmov (rd : EReg) (rs1 : EReg) : EncodedLayout.Statement (.fmov rd rs1) :=
  encodeFields_layout (by decide) (by omega) (by omega) (by decide) (by decide) (by decide) (by decide)
theorem EncodedLayout.ldbe (m : Modulus) (rd : EReg) : EncodedLayout.Statement (.ldbe m rd) :=
  encodeFields_layout (by decide) (by omega) (by decide) (by decide) (modulusBit_lt m) (by decide) (by decide)
theorem EncodedLayout.stbe (rs1 : EReg) : EncodedLayout.Statement (.stbe rs1) :=
  encodeFields_layout (by decide) (by decide) (by omega) (by decide) (by decide) (by decide) (by decide)
theorem EncodedLayout.pneut (pd : PReg) : EncodedLayout.Statement (.pneut pd) :=
  encodeFields_layout (by decide) (by omega) (by decide) (by decide) (by decide) (by decide) (by decide)
theorem EncodedLayout.pgen (pd : PReg) : EncodedLayout.Statement (.pgen pd) :=
  encodeFields_layout (by decide) (by omega) (by decide) (by decide) (by decide) (by decide) (by decide)
theorem EncodedLayout.padd (pd : PReg) (pa : PReg) (pb : PReg) : EncodedLayout.Statement (.padd pd pa pb) :=
  encodeFields_layout (by decide) (by omega) (by omega) (by omega) (by decide) (by decide) (by decide)
theorem EncodedLayout.pneg (pd : PReg) (pa : PReg) : EncodedLayout.Statement (.pneg pd pa) :=
  encodeFields_layout (by decide) (by omega) (by omega) (by decide) (by decide) (by decide) (by decide)
theorem EncodedLayout.pmul (pd : PReg) (pa : PReg) (rs2 : EReg) : EncodedLayout.Statement (.pmul pd pa rs2) :=
  encodeFields_layout (by decide) (by omega) (by omega) (by omega) (by decide) (by decide) (by decide)
theorem EncodedLayout.peq (pa : PReg) (pb : PReg) : EncodedLayout.Statement (.peq pa pb) :=
  encodeFields_layout (by decide) (by decide) (by omega) (by omega) (by decide) (by decide) (by decide)
theorem EncodedLayout.ponc (pa : PReg) : EncodedLayout.Statement (.ponc pa) :=
  encodeFields_layout (by decide) (by decide) (by omega) (by decide) (by decide) (by decide) (by decide)
theorem EncodedLayout.pcomp (rd : EReg) (pa : PReg) : EncodedLayout.Statement (.pcomp rd pa) :=
  encodeFields_layout (by decide) (by omega) (by omega) (by decide) (by decide) (by decide) (by decide)
theorem EncodedLayout.pdec (pd : PReg) (rs1 : EReg) (lsb : Bool) : EncodedLayout.Statement (.pdec pd rs1 lsb) :=
  encodeFields_layout (by decide) (by omega) (by omega) (by decide) (by decide) lsb.toNat_lt (by decide)

end Sys2Proof.Laws
end

