-- ==== Sys2Proof/Laws/Primes.lean ====
section
/-! SUPPORT. The two moduli are prime (R6), by Pratt certificates that the kernel checks with the model's own `powMod`,
and what follows for the inverse and for d. -/

namespace Sys2Proof.Machine

/-- Lucas's test as one check: `fs` multiplies to n - 1, and `a` has order n - 1 modulo n. -/
def lucasCheck (n a : Nat) (fs : List Nat) : Bool :=
  decide (1 < n) && decide (fs.prod = n - 1) && decide (powMod n a (n - 1) = 1) &&
    fs.all fun q => decide (powMod n a ((n - 1) / q) ≠ 1)

theorem prime_of_lucasCheck {n a : Nat} (fs : List Nat) (hfs : ∀ q ∈ fs, q.Prime) (h : lucasCheck n a fs = true) :
    n.Prime := by
  simp only [lucasCheck, Bool.and_eq_true, decide_eq_true_eq, List.all_eq_true] at h
  obtain ⟨⟨⟨hn, hprod⟩, h1⟩, hq⟩ := h
  have pow_eq_one_iff : ∀ k, ((a : ZMod n) ^ k = 1 ↔ powMod n a k = 1) := fun k => by
    rw [powMod_eq, ← Nat.cast_pow, ← Nat.cast_one, ZMod.natCast_eq_natCast_iff', Nat.mod_eq_of_lt hn]
  refine lucas_primality n a ((pow_eq_one_iff _).mpr h1) fun q hqp hdvd hone => ?_
  rw [← hprod] at hdvd
  obtain ⟨f, hf, hqf⟩ := (Prime.dvd_prod_iff (Nat.Prime.prime hqp)).mp hdvd
  obtain rfl := (Nat.prime_dvd_prime_iff_eq hqp (hfs f hf)).mp hqf
  exact hq q hf ((pow_eq_one_iff _).mp hone)

/-- The Pratt certificates: a number, a generator of its residues, and the factors of the number less one. -/
def certificates : List (Nat × Nat × List Nat) := [
  (222587, 2, [2, 7, 13, 1223]),
  (371951, 13, [2, 5, 5, 43, 173]),
  (514013, 2, [2, 2, 17, 7559]),
  (526583, 5, [2, 7, 29, 1297]),
  (651793, 10, [2, 2, 2, 2, 3, 37, 367]),
  (702529, 23, [2, 2, 2, 2, 2, 2, 3, 3659]),
  (728381, 2, [2, 2, 5, 79, 461]),
  (945377, 3, [2, 2, 2, 2, 2, 31, 953]),
  (973591, 13, [2, 3, 5, 17, 23, 83]),
  (1521613, 2, [2, 2, 3, 3, 3, 73, 193]),
  (2607173, 2, [2, 2, 651793]),
  (3084079, 6, [2, 3, 514013]),
  (4463413, 2, [2, 2, 3, 371951]),
  (31286077, 2, [2, 2, 3, 2607173]),
  (8009235713, 3, [2, 2, 2, 2, 2, 2, 2, 2, 31286077]),
  (10262543633, 3, [2, 2, 2, 2, 11, 83, 702529]),
  (246301047193, 5, [2, 2, 2, 3, 10262543633]),
  (1219974856409, 6, [2, 2, 2, 7, 11, 3761, 526583]),
  (5362571892569, 3, [2, 2, 2, 11, 19759, 3084079]),
  (14053602985063, 3, [2, 3, 1153, 2789, 728381]),
  (68964293214041, 12, [2, 2, 2, 5, 7, 246301047193]),
  (23236691026952546459, 2, [2, 7, 41, 587, 68964293214041]),
  (14220365526706201077871, 6, [2, 3, 3, 5, 23, 2221, 36151, 87881, 973591]),
  (18573392267149585541047, 3, [2, 3, 7, 47, 22037, 53309, 8009235713]),
  (21724951032325757565660335116609927384031, 7, [2, 5, 7, 29, 41, 14053602985063, 18573392267149585541047]),
  (2990476615816003741307067276653735674167839074949, 2, [2, 2, 1553, 22159, 21724951032325757565660335116609927384031]),
  (46048878092455660138546805916090762008558863338314776093, 6, [2, 2, 3, 967, 1327, 2990476615816003741307067276653735674167839074949]),
  (440208639276132997491800604758226661590679912188273141493, 2, [2, 2, 3, 7, 13, 1219974856409, 23236691026952546459, 14220365526706201077871]),
  (primeP, 2, [2, 3, 29, 222587, 1521613, 4463413, 440208639276132997491800604758226661590679912188273141493]),
  (orderR, 2, [2, 2, 31, 945377, 5362571892569, 46048878092455660138546805916090762008558863338314776093])]

theorem certificates_check : (certificates.all fun c => lucasCheck c.1 c.2.1 c.2.2) = true := by decide +kernel

theorem prime_of_certificate {n a : Nat} (fs : List Nat) (hc : (n, a, fs) ∈ certificates) (hfs : ∀ q ∈ fs, q.Prime) :
    n.Prime := prime_of_lucasCheck fs hfs (List.all_eq_true.mp certificates_check _ hc)

theorem prime_222587 : Nat.Prime 222587 := by
  refine prime_of_certificate (a := 2) [2, 7, 13, 1223] (by decide) ?_
  simp only [List.forall_mem_cons, List.not_mem_nil, false_imp_iff, implies_true, and_true]
  refine ⟨by norm_num, by norm_num, by norm_num, by norm_num⟩

theorem prime_371951 : Nat.Prime 371951 := by
  refine prime_of_certificate (a := 13) [2, 5, 5, 43, 173] (by decide) ?_
  simp only [List.forall_mem_cons, List.not_mem_nil, false_imp_iff, implies_true, and_true]
  refine ⟨by norm_num, by norm_num, by norm_num, by norm_num, by norm_num⟩

theorem prime_514013 : Nat.Prime 514013 := by
  refine prime_of_certificate (a := 2) [2, 2, 17, 7559] (by decide) ?_
  simp only [List.forall_mem_cons, List.not_mem_nil, false_imp_iff, implies_true, and_true]
  refine ⟨by norm_num, by norm_num, by norm_num, by norm_num⟩

theorem prime_526583 : Nat.Prime 526583 := by
  refine prime_of_certificate (a := 5) [2, 7, 29, 1297] (by decide) ?_
  simp only [List.forall_mem_cons, List.not_mem_nil, false_imp_iff, implies_true, and_true]
  refine ⟨by norm_num, by norm_num, by norm_num, by norm_num⟩

theorem prime_651793 : Nat.Prime 651793 := by
  refine prime_of_certificate (a := 10) [2, 2, 2, 2, 3, 37, 367] (by decide) ?_
  simp only [List.forall_mem_cons, List.not_mem_nil, false_imp_iff, implies_true, and_true]
  refine ⟨by norm_num, by norm_num, by norm_num, by norm_num, by norm_num, by norm_num, by norm_num⟩

theorem prime_702529 : Nat.Prime 702529 := by
  refine prime_of_certificate (a := 23) [2, 2, 2, 2, 2, 2, 3, 3659] (by decide) ?_
  simp only [List.forall_mem_cons, List.not_mem_nil, false_imp_iff, implies_true, and_true]
  refine ⟨by norm_num, by norm_num, by norm_num, by norm_num, by norm_num, by norm_num, by norm_num, by norm_num⟩

theorem prime_728381 : Nat.Prime 728381 := by
  refine prime_of_certificate (a := 2) [2, 2, 5, 79, 461] (by decide) ?_
  simp only [List.forall_mem_cons, List.not_mem_nil, false_imp_iff, implies_true, and_true]
  refine ⟨by norm_num, by norm_num, by norm_num, by norm_num, by norm_num⟩

theorem prime_945377 : Nat.Prime 945377 := by
  refine prime_of_certificate (a := 3) [2, 2, 2, 2, 2, 31, 953] (by decide) ?_
  simp only [List.forall_mem_cons, List.not_mem_nil, false_imp_iff, implies_true, and_true]
  refine ⟨by norm_num, by norm_num, by norm_num, by norm_num, by norm_num, by norm_num, by norm_num⟩

theorem prime_973591 : Nat.Prime 973591 := by
  refine prime_of_certificate (a := 13) [2, 3, 5, 17, 23, 83] (by decide) ?_
  simp only [List.forall_mem_cons, List.not_mem_nil, false_imp_iff, implies_true, and_true]
  refine ⟨by norm_num, by norm_num, by norm_num, by norm_num, by norm_num, by norm_num⟩

theorem prime_1521613 : Nat.Prime 1521613 := by
  refine prime_of_certificate (a := 2) [2, 2, 3, 3, 3, 73, 193] (by decide) ?_
  simp only [List.forall_mem_cons, List.not_mem_nil, false_imp_iff, implies_true, and_true]
  refine ⟨by norm_num, by norm_num, by norm_num, by norm_num, by norm_num, by norm_num, by norm_num⟩

theorem prime_2607173 : Nat.Prime 2607173 := by
  refine prime_of_certificate (a := 2) [2, 2, 651793] (by decide) ?_
  simp only [List.forall_mem_cons, List.not_mem_nil, false_imp_iff, implies_true, and_true]
  refine ⟨by norm_num, by norm_num, prime_651793⟩

theorem prime_3084079 : Nat.Prime 3084079 := by
  refine prime_of_certificate (a := 6) [2, 3, 514013] (by decide) ?_
  simp only [List.forall_mem_cons, List.not_mem_nil, false_imp_iff, implies_true, and_true]
  refine ⟨by norm_num, by norm_num, prime_514013⟩

theorem prime_4463413 : Nat.Prime 4463413 := by
  refine prime_of_certificate (a := 2) [2, 2, 3, 371951] (by decide) ?_
  simp only [List.forall_mem_cons, List.not_mem_nil, false_imp_iff, implies_true, and_true]
  refine ⟨by norm_num, by norm_num, by norm_num, prime_371951⟩

theorem prime_31286077 : Nat.Prime 31286077 := by
  refine prime_of_certificate (a := 2) [2, 2, 3, 2607173] (by decide) ?_
  simp only [List.forall_mem_cons, List.not_mem_nil, false_imp_iff, implies_true, and_true]
  refine ⟨by norm_num, by norm_num, by norm_num, prime_2607173⟩

theorem prime_8009235713 : Nat.Prime 8009235713 := by
  refine prime_of_certificate (a := 3) [2, 2, 2, 2, 2, 2, 2, 2, 31286077] (by decide) ?_
  simp only [List.forall_mem_cons, List.not_mem_nil, false_imp_iff, implies_true, and_true]
  refine ⟨by norm_num, by norm_num, by norm_num, by norm_num, by norm_num, by norm_num, by norm_num, by norm_num, prime_31286077⟩

theorem prime_10262543633 : Nat.Prime 10262543633 := by
  refine prime_of_certificate (a := 3) [2, 2, 2, 2, 11, 83, 702529] (by decide) ?_
  simp only [List.forall_mem_cons, List.not_mem_nil, false_imp_iff, implies_true, and_true]
  refine ⟨by norm_num, by norm_num, by norm_num, by norm_num, by norm_num, by norm_num, prime_702529⟩

theorem prime_246301047193 : Nat.Prime 246301047193 := by
  refine prime_of_certificate (a := 5) [2, 2, 2, 3, 10262543633] (by decide) ?_
  simp only [List.forall_mem_cons, List.not_mem_nil, false_imp_iff, implies_true, and_true]
  refine ⟨by norm_num, by norm_num, by norm_num, by norm_num, prime_10262543633⟩

theorem prime_d13_409 : Nat.Prime 1219974856409 := by
  refine prime_of_certificate (a := 6) [2, 2, 2, 7, 11, 3761, 526583] (by decide) ?_
  simp only [List.forall_mem_cons, List.not_mem_nil, false_imp_iff, implies_true, and_true]
  refine ⟨by norm_num, by norm_num, by norm_num, by norm_num, by norm_num, by norm_num, prime_526583⟩

theorem prime_d13_569 : Nat.Prime 5362571892569 := by
  refine prime_of_certificate (a := 3) [2, 2, 2, 11, 19759, 3084079] (by decide) ?_
  simp only [List.forall_mem_cons, List.not_mem_nil, false_imp_iff, implies_true, and_true]
  refine ⟨by norm_num, by norm_num, by norm_num, by norm_num, by norm_num, prime_3084079⟩

theorem prime_d14_63 : Nat.Prime 14053602985063 := by
  refine prime_of_certificate (a := 3) [2, 3, 1153, 2789, 728381] (by decide) ?_
  simp only [List.forall_mem_cons, List.not_mem_nil, false_imp_iff, implies_true, and_true]
  refine ⟨by norm_num, by norm_num, by norm_num, by norm_num, prime_728381⟩

theorem prime_d14_41 : Nat.Prime 68964293214041 := by
  refine prime_of_certificate (a := 12) [2, 2, 2, 5, 7, 246301047193] (by decide) ?_
  simp only [List.forall_mem_cons, List.not_mem_nil, false_imp_iff, implies_true, and_true]
  refine ⟨by norm_num, by norm_num, by norm_num, by norm_num, by norm_num, prime_246301047193⟩

theorem prime_d20_459 : Nat.Prime 23236691026952546459 := by
  refine prime_of_certificate (a := 2) [2, 7, 41, 587, 68964293214041] (by decide) ?_
  simp only [List.forall_mem_cons, List.not_mem_nil, false_imp_iff, implies_true, and_true]
  refine ⟨by norm_num, by norm_num, by norm_num, by norm_num, prime_d14_41⟩

theorem prime_d23_871 : Nat.Prime 14220365526706201077871 := by
  refine prime_of_certificate (a := 6) [2, 3, 3, 5, 23, 2221, 36151, 87881, 973591] (by decide) ?_
  simp only [List.forall_mem_cons, List.not_mem_nil, false_imp_iff, implies_true, and_true]
  refine ⟨by norm_num, by norm_num, by norm_num, by norm_num, by norm_num, by norm_num, by norm_num, by norm_num, prime_973591⟩

theorem prime_d23_47 : Nat.Prime 18573392267149585541047 := by
  refine prime_of_certificate (a := 3) [2, 3, 7, 47, 22037, 53309, 8009235713] (by decide) ?_
  simp only [List.forall_mem_cons, List.not_mem_nil, false_imp_iff, implies_true, and_true]
  refine ⟨by norm_num, by norm_num, by norm_num, by norm_num, by norm_num, by norm_num, prime_8009235713⟩

theorem prime_d41_31 : Nat.Prime 21724951032325757565660335116609927384031 := by
  refine prime_of_certificate (a := 7) [2, 5, 7, 29, 41, 14053602985063, 18573392267149585541047] (by decide) ?_
  simp only [List.forall_mem_cons, List.not_mem_nil, false_imp_iff, implies_true, and_true]
  refine ⟨by norm_num, by norm_num, by norm_num, by norm_num, by norm_num, prime_d14_63, prime_d23_47⟩

theorem prime_d49_949 : Nat.Prime 2990476615816003741307067276653735674167839074949 := by
  refine prime_of_certificate (a := 2) [2, 2, 1553, 22159, 21724951032325757565660335116609927384031] (by decide) ?_
  simp only [List.forall_mem_cons, List.not_mem_nil, false_imp_iff, implies_true, and_true]
  refine ⟨by norm_num, by norm_num, by norm_num, by norm_num, prime_d41_31⟩

theorem prime_d56_93 : Nat.Prime 46048878092455660138546805916090762008558863338314776093 := by
  refine prime_of_certificate (a := 6) [2, 2, 3, 967, 1327, 2990476615816003741307067276653735674167839074949] (by decide) ?_
  simp only [List.forall_mem_cons, List.not_mem_nil, false_imp_iff, implies_true, and_true]
  refine ⟨by norm_num, by norm_num, by norm_num, by norm_num, by norm_num, prime_d49_949⟩

theorem prime_d57_493 : Nat.Prime 440208639276132997491800604758226661590679912188273141493 := by
  refine prime_of_certificate (a := 2) [2, 2, 3, 7, 13, 1219974856409, 23236691026952546459, 14220365526706201077871] (by decide) ?_
  simp only [List.forall_mem_cons, List.not_mem_nil, false_imp_iff, implies_true, and_true]
  refine ⟨by norm_num, by norm_num, by norm_num, by norm_num, by norm_num, prime_d13_409, prime_d20_459, prime_d23_871⟩

/-- p is prime (R6). -/
theorem primeP_prime : Nat.Prime primeP := by
  refine prime_of_certificate (a := 2) [2, 3, 29, 222587, 1521613, 4463413, 440208639276132997491800604758226661590679912188273141493] (by decide) ?_
  simp only [List.forall_mem_cons, List.not_mem_nil, false_imp_iff, implies_true, and_true]
  refine ⟨by norm_num, by norm_num, by norm_num, prime_222587, prime_1521613, prime_4463413, prime_d57_493⟩

/-- r is prime (R6). -/
theorem orderR_prime : Nat.Prime orderR := by
  refine prime_of_certificate (a := 2) [2, 2, 31, 945377, 5362571892569, 46048878092455660138546805916090762008558863338314776093] (by decide) ?_
  simp only [List.forall_mem_cons, List.not_mem_nil, false_imp_iff, implies_true, and_true]
  refine ⟨by norm_num, by norm_num, by norm_num, prime_945377, prime_d13_569, prime_d56_93⟩

/-- Both moduli are prime (R114). -/
theorem modulusValue_prime (m : Modulus) : (modulusValue m).Prime := by
  cases m
  · exact primeP_prime
  · exact orderR_prime

/-! ### The inverse -/

theorem invMod_eq_none_iff (m a : Nat) : invMod m a = none ↔ a % m = 0 := by simp [invMod]

/-- Modulo a prime, `invMod` is the inverse: below m, and its product with `a` is 1 (R118). -/
theorem invMod_spec {m a : Nat} (hm : m.Prime) (ha : a % m ≠ 0) :
    ∃ x, invMod m a = some x ∧ x < m ∧ a * x % m = 1 := by
  refine ⟨powMod m a (m - 2), by simp [invMod, ha], ?_, ?_⟩
  · rw [powMod_eq]; exact Nat.mod_lt _ hm.pos
  · rw [powMod_eq, Nat.mul_mod_mod, ← Nat.pow_succ', show (m - 2).succ = m - 1 by have := hm.two_le; omega]
    have hf := Fact.mk hm
    have h0 : (a : ZMod m) ≠ 0 := by rwa [Ne, ZMod.natCast_eq_zero_iff, Nat.dvd_iff_mod_eq_zero]
    have h1 : ((a ^ (m - 1) : Nat) : ZMod m) = ((1 : Nat) : ZMod m) := by
      push_cast; exact ZMod.pow_card_sub_one_eq_one h0
    rwa [ZMod.natCast_eq_natCast_iff', Nat.mod_eq_of_lt hm.one_lt] at h1

/-- Modulo a prime, `invMod` is the inverse of the residue field. -/
theorem invMod_zmod {m a x : Nat} (hm : m.Prime) (h : invMod m a = some x) : (x : ZMod m) = (a : ZMod m)⁻¹ := by
  have hf := Fact.mk hm
  have ha : a % m ≠ 0 := fun h0 => by rw [(invMod_eq_none_iff m a).mpr h0] at h; cases h
  obtain ⟨x', hx', -, hone⟩ := invMod_spec hm ha
  obtain rfl : x' = x := Option.some.inj (hx'.symm.trans h)
  refine eq_inv_of_mul_eq_one_right ?_
  rw [← Nat.cast_mul, ← Nat.cast_one, ZMod.natCast_eq_natCast_iff', hone, Nat.mod_eq_of_lt hm.one_lt]

/-! ### Squares modulo p (R6, R140) -/

/-- Euler's criterion, with the model's `powMod`. -/
theorem not_isSquare_of_powMod {n : Nat} (h0 : n % primeP ≠ 0) (h : powMod primeP n (primeP / 2) ≠ 1) :
    ¬ IsSquare (n : ZMod primeP) := by
  have hf := Fact.mk primeP_prime
  have h0' : (n : ZMod primeP) ≠ 0 := by rwa [Ne, ZMod.natCast_eq_zero_iff, Nat.dvd_iff_mod_eq_zero]
  rwa [ZMod.euler_criterion primeP h0', ← Nat.cast_pow, ← Nat.cast_one, ZMod.natCast_eq_natCast_iff', ← powMod_eq,
    Nat.mod_eq_of_lt primeP_prime.one_lt]

/-- d is not a square modulo p (R140). -/
theorem curveD_not_isSquare : ¬ IsSquare (curveD : ZMod primeP) :=
  not_isSquare_of_powMod (by decide) (by decide +kernel)

end Sys2Proof.Machine
end

