-- ==== Sys2Proof/Laws/Sponge.lean ====
section
/-! SUPPORT. The Keccak state's lanes, and what absorbing and squeezing do to the sponge registers. -/

namespace Sys2Proof.Machine

/-! ### Lanes -/

/-- Reading a tabulated place, the index taken mod 5. -/
theorem Five.get_tabulate {α : Type} (f : Nat → α) (i : Nat) : (Five.tabulate f).get i = f (i % 5) := by
  have h : i % 5 < 5 := Nat.mod_lt _ (by decide)
  unfold Five.get
  interval_cases i % 5 <;> rfl

/-- A lane of a state given by a rule is the rule's value. -/
@[simp] theorem lane_tabulateLanes (f : Nat → Nat → Lane) (y x : Nat) : lane (tabulateLanes f) y x = f (y % 5) (x % 5) := by
  simp [lane, tabulateLanes, Five.get_tabulate]

/-- Changing one place leaves the others. -/
theorem Five.get_modify {α : Type} (r : Five α) (i j : Nat) (f : α → α) :
    (r.modify i f).get j = if j % 5 = i % 5 then f (r.get j) else r.get j := by
  have hj : r.get (j % 5) = r.get j := by simp [Five.get]
  rw [Five.modify, Five.get_tabulate, hj]

/-- Keccak states with the same lanes are equal. -/
theorem keccak_ext {a b : KeccakState} (h : ∀ y < 5, ∀ x < 5, lane a y x = lane b y x) : a = b := by
  have row : ∀ {r s : Five Lane}, (∀ x < 5, r.get x = s.get x) → r = s := fun {r s} h => by
    obtain ⟨_, _, _, _, _⟩ := r
    obtain ⟨_, _, _, _, _⟩ := s
    simp only [Five.mk.injEq]
    exact ⟨h 0 (by decide), h 1 (by decide), h 2 (by decide), h 3 (by decide), h 4 (by decide)⟩
  obtain ⟨_, _, _, _, _⟩ := a
  obtain ⟨_, _, _, _, _⟩ := b
  simp only [Five.mk.injEq]
  exact ⟨row fun x hx => h 0 (by decide) x hx, row fun x hx => h 1 (by decide) x hx,
    row fun x hx => h 2 (by decide) x hx, row fun x hx => h 3 (by decide) x hx, row fun x hx => h 4 (by decide) x hx⟩

/-- XorByte changes the one lane that holds the byte (R26). -/
theorem lane_xorByte (a : KeccakState) (i y x : Nat) (b : Byte) (hi : i < 200) (hy : y < 5) (hx : x < 5) :
    lane (xorByte a i b) y x =
      if y = i / 8 / 5 ∧ x = i / 8 % 5 then lane a y x ^^^ (b.setWidth 64 <<< (8 * (i % 8))) else lane a y x := by
  have h1 : i / 8 / 5 % 5 = i / 8 / 5 := Nat.mod_eq_of_lt (by omega)
  simp only [xorByte, hi, if_true, lane, Five.get_modify, Nat.mod_eq_of_lt hy, h1]
  by_cases h : y = i / 8 / 5
  · subst h
    simp [Five.get_modify, Nat.mod_eq_of_lt hx]
  · simp [h]

/-! ### Variants -/

theorem variantRate_lt (v : Variant) : variantRate v < 200 := by cases v <;> decide
theorem variantRate_pos (v : Variant) : 0 < variantRate v := by cases v <;> decide

/-- A digest is shorter than the variant's block (R101). -/
theorem digestLen_lt_rate {v : Variant} {n : Nat} (h : digestLen v = some n) : n < variantRate v := by
  cases v <;> simp [digestLen, isShake, variantCode, variantSuffix] at h <;> subst h <;> decide

/-! ### Absorbing -/

@[simp] theorem absorbByte_phase (k : Sponge) (b : Byte) : (absorbByte k b).phase = k.phase := by
  unfold absorbByte; split <;> rfl
@[simp] theorem absorbByte_variant (k : Sponge) (b : Byte) : (absorbByte k b).variant = k.variant := by
  unfold absorbByte; split <;> rfl
@[simp] theorem absorbByte_rate (k : Sponge) (b : Byte) : (absorbByte k b).rate = k.rate := by
  unfold absorbByte; split <;> rfl

@[simp] theorem absorb_phase (k : Sponge) (bs : List Byte) : (absorb k bs).phase = k.phase := by
  induction bs generalizing k with
  | nil => rfl
  | cons b bs ih => exact (ih _).trans (absorbByte_phase k b)
@[simp] theorem absorb_variant (k : Sponge) (bs : List Byte) : (absorb k bs).variant = k.variant := by
  induction bs generalizing k with
  | nil => rfl
  | cons b bs ih => exact (ih _).trans (absorbByte_variant k b)
@[simp] theorem absorb_rate (k : Sponge) (bs : List Byte) : (absorb k bs).rate = k.rate := by
  induction bs generalizing k with
  | nil => rfl
  | cons b bs ih => exact (ih _).trans (absorbByte_rate k b)

/-- Absorbing two sequences is absorbing one after the other (R106). -/
theorem absorb_append (k : Sponge) (bs₁ bs₂ : List Byte) : absorb k (bs₁ ++ bs₂) = absorb (absorb k bs₁) bs₂ :=
  List.foldl_append

/-- Moving the cursor on by one byte keeps it inside the block (R31). -/
theorem pos_step_lt {pos rate : BitVec 8} (h : pos.toNat < rate.toNat) (hr : rate.toNat < 200) (hne : pos + 1 ≠ rate) :
    (pos + 1).toNat < rate.toNat := by
  have h1 : (pos + 1).toNat = pos.toNat + 1 := by
    rw [BitVec.toNat_add, show (1 : BitVec 8).toNat = 1 from rfl]; exact Nat.mod_eq_of_lt (by omega)
  have : (pos + 1).toNat ≠ rate.toNat := fun he => hne (BitVec.eq_of_toNat_eq he)
  omega

theorem spongeOk_absorbByte {k : Sponge} (h : spongeOk k) (hp : k.phase ≠ .uninit) (b : Byte) :
    spongeOk (absorbByte k b) := by
  obtain ⟨hr, hlt⟩ := h.2 hp
  have hv := variantRate_lt k.variant
  refine ⟨fun h' => absurd ((absorbByte_phase k b).symm.trans h') hp, fun _ => ?_⟩
  simp only [absorbByte_rate, absorbByte_variant]
  refine ⟨hr, ?_⟩
  unfold absorbByte
  split
  · show (0 : BitVec 8).toNat < k.rate.toNat
    rw [show (0 : BitVec 8).toNat = 0 from rfl]; omega
  · next hne => exact pos_step_lt hlt (by omega) hne

/-- Absorbing keeps the sponge registers in agreement (R31). -/
theorem spongeOk_absorb {k : Sponge} (h : spongeOk k) (hp : k.phase ≠ .uninit) (bs : List Byte) :
    spongeOk (absorb k bs) := by
  induction bs generalizing k with
  | nil => exact h
  | cons b bs ih => exact ih (spongeOk_absorbByte h hp b) (by simpa using hp)

/-- Padding keeps the sponge registers in agreement (R103). -/
theorem spongeOk_padFinal {k : Sponge} (h : spongeOk k) (hp : k.phase ≠ .uninit) : spongeOk (padFinal k) := by
  obtain ⟨hr, hlt⟩ := h.2 hp
  refine ⟨fun h' => by simp [padFinal] at h', fun _ => ⟨hr, ?_⟩⟩
  show (0 : BitVec 8).toNat < k.rate.toNat
  rw [show (0 : BitVec 8).toNat = 0 from rfl]; omega

/-! ### Squeezing -/

@[simp] theorem squeezeByte_phase (k : Sponge) : (squeezeByte k).2.phase = k.phase := by
  unfold squeezeByte; dsimp only; split <;> rfl
@[simp] theorem squeezeByte_variant (k : Sponge) : (squeezeByte k).2.variant = k.variant := by
  unfold squeezeByte; dsimp only; split <;> rfl
@[simp] theorem squeezeByte_rate (k : Sponge) : (squeezeByte k).2.rate = k.rate := by
  unfold squeezeByte; dsimp only; split <;> rfl

@[simp] theorem squeeze_phase (n : Nat) (k : Sponge) : (squeeze n k).2.phase = k.phase := by
  induction n generalizing k with
  | zero => rfl
  | succ n ih => exact (ih _).trans (squeezeByte_phase k)

@[simp] theorem length_squeeze (n : Nat) (k : Sponge) : (squeeze n k).1.length = n := by
  induction n generalizing k with
  | zero => rfl
  | succ n ih => simp [squeeze, ih]

/-- The sponge after `n` squeezed bytes is SqueezeByte applied `n` times (R104, R108). -/
theorem squeeze_snd (n : Nat) (k : Sponge) : (squeeze n k).2 = (fun k => (squeezeByte k).2)^[n] k := by
  induction n generalizing k with
  | zero => rfl
  | succ n ih => exact ih _

/-- Squeezed byte `i` is the state byte at POS of the sponge after `i` bytes (R104, R108). -/
theorem getElem?_squeeze (n i : Nat) (k : Sponge) (h : i < n) :
    (squeeze n k).1[i]? =
      some (stateByte ((fun k => (squeezeByte k).2)^[i] k).a ((fun k => (squeezeByte k).2)^[i] k).pos.toNat) := by
  induction n generalizing i k with
  | zero => omega
  | succ n ih =>
    cases i with
    | zero => rfl
    | succ i => exact ih i _ (by omega)

/-- Squeezing n1 + n2 bytes is squeezing n1 and then n2 (R108). -/
theorem squeeze_add (n₁ n₂ : Nat) (k : Sponge) :
    squeeze (n₁ + n₂) k = ((squeeze n₁ k).1 ++ (squeeze n₂ (squeeze n₁ k).2).1, (squeeze n₂ (squeeze n₁ k).2).2) := by
  induction n₁ generalizing k with
  | zero => simp [squeeze]
  | succ n₁ ih => rw [show n₁ + 1 + n₂ = (n₁ + n₂) + 1 by omega, squeeze, ih]; rfl

theorem spongeOk_squeezeByte {k : Sponge} (h : spongeOk k) (hp : k.phase ≠ .uninit) : spongeOk (squeezeByte k).2 := by
  obtain ⟨hr, hlt⟩ := h.2 hp
  have hv := variantRate_lt k.variant
  refine ⟨fun h' => absurd ((squeezeByte_phase k).symm.trans h') hp, fun _ => ?_⟩
  simp only [squeezeByte_rate, squeezeByte_variant]
  refine ⟨hr, ?_⟩
  unfold squeezeByte
  dsimp only
  split
  · show (0 : BitVec 8).toNat < k.rate.toNat
    rw [show (0 : BitVec 8).toNat = 0 from rfl]; omega
  · next hne => exact pos_step_lt hlt (by omega) hne

/-- Squeezing keeps the sponge registers in agreement (R31). -/
theorem spongeOk_squeeze {k : Sponge} (h : spongeOk k) (hp : k.phase ≠ .uninit) (n : Nat) :
    spongeOk (squeeze n k).2 := by
  induction n generalizing k with
  | zero => exact h
  | succ n ih => exact ih (spongeOk_squeezeByte h hp) (by simpa using hp)

/-- The sponge of a fresh KINIT is in agreement (R105). -/
theorem spongeOk_startSponge (v : Variant) : spongeOk (startSponge v) := by cases v <;> decide

end Sys2Proof.Machine
end

