-- ==== Sys2Proof/Tests/Slice0.lean ====
section
/-! SUPPORT. Tests: the well-formedness check, the decoding of a word written out for every command, one or two single steps
per command with the values of 95_test_vectors.md, and for each statement with hypotheses a state that meets them. -/

namespace Sys2Proof.Tests

open Sys2Proof.Machine

/-! ### Helpers -/

/-- The next state, where there is one. -/
def after (o : Host.Outcome State Fault Refusal) : Option State :=
  match o with
  | .next t => some t
  | .fault _ => none
  | .refused _ => none

/-- The fault, where there is one. -/
def faultOf (o : Host.Outcome State Fault Refusal) : Option Fault :=
  match o with
  | .next _ => none
  | .fault f => some f
  | .refused _ => none

/-- The reset state with element registers set. -/
def withElems (l : List (EReg × Nat)) : State := l.foldl (fun s c => s.writeE c.1 c.2) State.reset

/-- One element register of the next state. -/
def elemAfter (n : EReg) (o : Host.Outcome State Fault Refusal) : Option Nat := (after o).map fun t => t.readE n

/-- FLAGS of the next state as a number. -/
def flagsAfter (o : Host.Outcome State Fault Refusal) : Option Nat := (after o).map fun t => (flagsWord t.flags).toNat

/-- SPONGE of the next state as a number. -/
def spongeAfter (o : Host.Outcome State Fault Refusal) : Option Nat := (after o).map fun t => (spongeWord t.sponge).toNat

/-- ERRCODE of the next state as a number. -/
def errorAfter (o : Host.Outcome State Fault Refusal) : Option Nat := (after o).map fun t => errCodeValue t.errCode

/-- A state in a sponge phase, with a byte range latched. -/
def spongeState (p : Phase) (v : Variant) (addr len : Nat) : State :=
  { State.reset with
    sponge := { startSponge v with phase := p }, addrL := BitVec.ofNat 13 addr, lenL := BitVec.ofNat 13 len }

/-- The coordinate y of 2G (95_test_vectors.md section 5). -/
def twoGY : Nat := 0x49b31aca4635d49e91b755216da3e9ea6e1e6461590f74a9e736599fac2496b8

/-! ### The well-formedness check -/

theorem test_wf_refuses_variant_6 : (Instr.kinit 6).wellFormed = false := by decide
theorem test_wf_refuses_variant_7 : (Instr.kinit 7).wellFormed = false := by decide
theorem test_wf_accepts_variant_5 : (Instr.kinit 5).wellFormed = true := by decide

/-! ### Decoding: for every command a word written out from R70 and R76, `OP` last -/

theorem test_decode_nop : decode 0b00000000000000000000000000000000 = .ok .nop := by decide
theorem test_decode_kinit : decode 0b00000101000000000000000000010000 = .ok (.kinit 5) := by decide
theorem test_decode_kabs : decode 0b00000000000000000000000000010001 = .ok .kabs := by decide
theorem test_decode_kfin : decode 0b00000000000000000000000000010010 = .ok .kfin := by decide
theorem test_decode_ksqz : decode 0b00000000000000000000000000010011 = .ok .ksqz := by decide
theorem test_decode_kdig : decode 0b00000000000000000000000000010100 = .ok .kdig := by decide
theorem test_decode_kperm : decode 0b00000000000000000000000000010101 = .ok .kperm := by decide
theorem test_decode_krel : decode 0b00000000000000000000000000010110 = .ok .krel := by decide
theorem test_decode_fadd : decode 0b00000000000000100001001100100000 = .ok (.fadd .p 3 1 2) := by decide
theorem test_decode_fsub : decode 0b00000000000111110001100000100001 = .ok (.fsub .r 8 1 15) := by decide
theorem test_decode_fmul : decode 0b00000000000101100101010000100010 = .ok (.fmul .r 4 5 6) := by decide
theorem test_decode_fpow : decode 0b00000000000000100001001100100011 = .ok (.fpow .p 3 1 2) := by decide
theorem test_decode_fneg : decode 0b00000000000100001100110000100100 = .ok (.fneg .r 12 12) := by decide
theorem test_decode_finv : decode 0b00000000000000000111011100100101 = .ok (.finv .p 7 7) := by decide
theorem test_decode_fred : decode 0b00000000000100000001001000100110 = .ok (.fred .r 2 1) := by decide
theorem test_decode_fsqrt : decode 0b00000000001000000001001000100111 = .ok (.fsqrt 2 1 true) := by decide
theorem test_decode_fmov : decode 0b00000000000000001111000000101000 = .ok (.fmov 0 15) := by decide
theorem test_decode_ldbe : decode 0b00000000000100000000110000110000 = .ok (.ldbe .r 12) := by decide
theorem test_decode_stbe : decode 0b00000000000000000110000000110001 = .ok (.stbe 6) := by decide
theorem test_decode_pneut : decode 0b00000000000000000000001101000000 = .ok (.pneut 3) := by decide
theorem test_decode_pgen : decode 0b00000000000000000000010101000001 = .ok (.pgen 5) := by decide
theorem test_decode_padd : decode 0b00000000000000010010011101000010 = .ok (.padd 7 2 1) := by decide
theorem test_decode_pneg : decode 0b00000000000000000001001001000011 = .ok (.pneg 2 1) := by decide
theorem test_decode_pmul : decode 0b00000000000011000000001001000100 = .ok (.pmul 2 0 12) := by decide
theorem test_decode_peq : decode 0b00000000000000100001000001000101 = .ok (.peq 1 2) := by decide
theorem test_decode_ponc : decode 0b00000000000000000011000001000110 = .ok (.ponc 3) := by decide
theorem test_decode_pcomp : decode 0b00000000000000000010111001000111 = .ok (.pcomp 14 2) := by decide
theorem test_decode_pdec : decode 0b00000000001000001000001101001000 = .ok (.pdec 3 8 true) := by decide

/-- Examples of R77 and R80. -/
theorem test_encode_examples : encode (.fadd .p 3 1 2) = 0x00021320 ∧ encode (.pmul 2 0 12) = 0x000C0244 ∧
    encode (.kinit 1) = 0x01000010 ∧ encode (.pdec 3 6 false) = 0x00006348 := by decide

/-- The first and last reserved opcodes of each range of R79, and the assigned ones beside them. -/
theorem test_reserved_opcodes :
    (∀ w ∈ [0x01, 0x0F, 0x17, 0x1F, 0x29, 0x2F, 0x32, 0x3F, 0x49, 0xFF, 0x80000001],
      decode (BitVec.ofNat 32 w) = .error .illegalOpcode) ∧
    ∀ w ∈ [0x00, 0x10, 0x16, 0x20, 0x28, 0x30, 0x31, 0x40, 0x48],
      decode (BitVec.ofNat 32 w) ≠ .error .illegalOpcode := by decide

/-- X3, X5, F36, F37, SP1, and the top bits of point fields (R73). -/
theorem test_illegal_fields :
    ∀ w ∈ [0x00000100, 0x10000011, 0x00101227, 0x00202120, 0x06000010, 0x07000010, 0x08000010, 0x00400000, 0x00000840,
        0x00008142, 0x00080142, 0x00000848],
      decode (BitVec.ofNat 32 w) = .error .illegalField := by decide

/-! ### Keccak and the sponge (95_test_vectors.md sections 2 and 3) -/

/-- K1; SP9: the first four bytes of the S1 digest, after KFIN of the empty message; P1, with the first and last bytes of the S1
digest; R96: the LFSR gives the table. -/
theorem test_keccak_values :
    ((after (exec .kperm State.reset)).map (fun t => (lane t.sponge.a 0 0, lane t.sponge.a 4 4)) =
      some (0xF1258F7940E1DDE7, 0xEAF1FF7B5CECA249)) ∧
    ((after (exec .kfin (spongeState .absorbing .sha3_256 0 0))).map (fun t =>
      (spongeWord t.sponge, (kstateWord t.sponge.a 0))) = some (0x00008821, 0xF8C6FFA7)) ∧
    ((after (exec .kdig (spongeState .absorbing .sha3_256 0x100 0))).map (fun t =>
      (spongeWord t.sponge, readByte t.scratch 0x100, readByte t.scratch 0x11F, readByte t.scratch 0x120)) =
      some (0x00208821, some 0xA7, some 0x4A, none)) ∧
    ((List.range 24).map rcWord = roundConstants) := by
  decide +kernel
/-- K5: the phase stays, POS goes to 0. -/
theorem test_kperm_absorbing :
    spongeAfter (exec .kperm { State.reset with sponge := { startSponge .sha3_256 with pos := 5 } }) =
      some 0x00008811 := by decide
/-- SP1. -/
theorem test_kinit_shake128 : spongeAfter (exec (.kinit 4) State.reset) = some 0x0000A814 := by decide
/-- R105: V = 6. -/
theorem test_kinit_bad_variant : errorAfter (exec (.kinit 6) State.reset) = some 2 := by decide
/-- K5: five bytes 0xA3 after KINIT SHA3-256 leave POS = 5. -/
theorem test_kabs_five :
    spongeAfter (exec .kabs { spongeState .absorbing .sha3_256 4 5 with scratch := writeBytes [] 4 (List.replicate 5 0xA3) }) =
      some 0x00058811 := by decide
/-- R53: an unwritten byte. -/
theorem test_kabs_unwritten : faultOf (exec .kabs (spongeState .absorbing .sha3_256 0 1)) = some .unwrittenRead := by decide
/-- SP10: a second KFIN. -/
theorem test_kfin_twice : errorAfter (exec .kfin (spongeState .squeezing .sha3_256 0 0)) = some 3 := by decide
/-- SP6 cut short: squeezing one byte of a zero state at the last address. -/
theorem test_ksqz_last_byte :
    (after (exec .ksqz (spongeState .squeezing .shake128 4095 1))).map (fun t => (readByte t.scratch 4095, t.sponge.pos)) =
      some (some 0, 1) := by decide
/-- SP10: 4095 + 2 > 4096. -/
theorem test_ksqz_range : errorAfter (exec .ksqz (spongeState .squeezing .shake128 4095 2)) = some 4 := by decide
/-- SP10: KDIG on a SHAKE variant. -/
theorem test_kdig_shake : errorAfter (exec .kdig (spongeState .absorbing .shake128 0 0)) = some 3 := by decide
/-- SP11. -/
theorem test_krel : spongeAfter (exec .krel (spongeState .squeezing .shake256 0 0)) = some 0 := by decide
/-- R90: NOP changes nothing. -/
theorem test_nop : after (exec .nop State.reset) = some State.reset := by decide

/-! ### Field commands (95_test_vectors.md section 4) -/

/-- F1. -/
theorem test_fadd_wraps :
    elemAfter 3 (exec (.fadd .p 3 1 2) (withElems [(1, primeP - 1), (2, 1)])) = some 0 ∧
      flagsAfter (exec (.fadd .p 3 1 2) (withElems [(1, primeP - 1), (2, 1)])) = some 1 := by decide
/-- F2: inputs above p. -/
theorem test_fadd_unreduced :
    elemAfter 3 (exec (.fadd .p 3 1 2) (withElems [(1, 2 ^ 256 - 1), (2, 2 ^ 256 - 1)])) = some 0x178 := by decide
/-- F5. -/
theorem test_fsub_negative : elemAfter 3 (exec (.fsub .r 3 1 2) (withElems [(2, 1)])) = some (orderR - 1) := by decide
/-- F9. -/
theorem test_fmul_r :
    elemAfter 4 (exec (.fmul .r 4 5 6) (withElems [(5, 2 ^ 256 - 1), (6, 1)])) =
      some 0x106556a94bd650e6c691ec643bb752d4b := by decide
/-- F10: 0^0 = 1. -/
theorem test_fpow_zero_zero : elemAfter 3 (exec (.fpow .p 3 1 2) State.reset) = some 1 := by decide
/-- F14; F20; F27: the odd root of 4; F30: 5 has no root, E2 and Z stay. -/
theorem test_field_values :
    (elemAfter 3 (exec (.fpow .p 3 1 2) (withElems [(1, 4), (2, (primeP + 1) / 4)])) = some (primeP - 2)) ∧
    (elemAfter 7 (exec (.finv .r 7 7) (withElems [(7, 2)])) =
      some 0x1fffffffffffffffffffffffffffffffdf3552ad68535e3272dc273788915a57) ∧
    (elemAfter 2 (exec (.fsqrt 2 1 true) (withElems [(1, 4)])) = some (primeP - 2)) ∧
    ((after (exec (.fsqrt 2 1 false) (withElems [(1, 5), (2, 0x4d)]))).map (fun t => (t.readE 2, (flagsWord t.flags).toNat)) =
      some (0x4d, 0x10)) := by
  decide +kernel
/-- F18. -/
theorem test_fneg_unreduced : elemAfter 2 (exec (.fneg .p 2 1) (withElems [(1, primeP + 1)])) = some (primeP - 1) := by
  decide
/-- F35: p has no inverse, and stays. -/
theorem test_finv_of_p :
    errorAfter (exec (.finv .p 7 7) (withElems [(7, primeP)])) = some 5 ∧
      elemAfter 7 (exec (.finv .p 7 7) (withElems [(7, primeP)])) = some primeP := by decide
/-- F25. -/
theorem test_fred_of_p : flagsAfter (exec (.fred .p 2 1) (withElems [(1, primeP)])) = some 1 := by decide
/-- F33. -/
theorem test_fmov_raw : elemAfter 0 (exec (.fmov 0 15) (withElems [(15, 2 ^ 256 - 1)])) = some (2 ^ 256 - 1) := by decide
/-- F41: the first byte is the most significant. -/
theorem test_ldbe_big_endian :
    elemAfter 1 (exec (.ldbe .p 1) { State.reset with lenL := 3, scratch := [(0, 1), (1, 2), (2, 3)] }) = some 0x010203 := by
  decide
/-- F43: 65 bytes. -/
theorem test_ldbe_too_long : errorAfter (exec (.ldbe .p 1) { State.reset with lenL := 65 }) = some 4 := by decide
/-- F45. -/
theorem test_stbe_one :
    (after (exec (.stbe 6) { withElems [(6, 1)] with addrL := 0x40 })).map (fun t =>
      (readByte t.scratch 0x3F, readByte t.scratch 0x40, readByte t.scratch 0x5F, readByte t.scratch 0x60)) =
      some (none, some 0, some 1, none) := by decide
/-- F47. -/
theorem test_stbe_range : errorAfter (exec (.stbe 6) { withElems [(6, 1)] with addrL := 4065 }) = some 4 := by decide

/-! ### Edwards commands (95_test_vectors.md section 5) -/

/-- E2. -/
theorem test_pneut :
    (after (exec (.pneut 3) State.reset)).map (fun t => (t.readE 6, t.readE 7, t.flags.iso)) = some (0, 1, true) := by decide
/-- E1. -/
theorem test_pgen :
    (after (exec (.pgen 5) State.reset)).map (fun t => (t.readE 10, t.readE 11, t.flags.iso)) =
      some (genX, primeP - 4, false) := by decide
/-- E3: doubling; E8: the scalar r + 2 gives 2G; E15h: y = 2 has no root; E15f: y = 1 decodes to O. -/
theorem test_edwards_values :
    (elemAfter 3 (exec (.padd 1 0 0) (withElems [(0, genX), (1, genY)])) = some twoGY) ∧
    (elemAfter 5 (exec (.pmul 2 0 12) (withElems [(0, genX), (1, genY), (12, orderR + 2)])) = some twoGY) ∧
    ((after (exec (.pdec 3 6 false) (withElems [(6, 2)]))).map (fun t =>
      (t.readE 6, t.readE 7, (flagsWord t.flags).toNat)) = some (0, 1, 0x50)) ∧
    ((after (exec (.pdec 3 6 false) (withElems [(6, 1)]))).map (fun t =>
      (t.readE 6, t.readE 7, (flagsWord t.flags).toNat)) = some (0, 1, 0x40)) := by
  decide +kernel
/-- E12: a zero denominator. -/
theorem test_padd_no_inverse :
    errorAfter (exec (.padd 2 0 1) (withElems [(0, 1), (1, 1), (2, 1),
      (3, 0xf7d304524a840bd025a443e0080244e8db938bf02eb7e74e563205a3bb30c492)])) = some 5 := by decide
/-- E7. -/
theorem test_pneg_g :
    elemAfter 2 (exec (.pneg 1 0) (withElems [(0, genX), (1, genY)])) =
      some 0x60e7eb2c95ac1834307289649964365cf8bb7f2343a359ba578d49733f4e8fb5 := by decide
/-- E8: the scalar 0 gives O. -/
theorem test_pmul_zero : flagsAfter (exec (.pmul 2 0 12) (withElems [(0, genX), (1, genY)])) = some 0x40 := by decide
/-- E9b: coordinates are reduced first. -/
theorem test_peq_reduces :
    flagsAfter (exec (.peq 1 2) (withElems [(2, 5), (3, 6), (4, 5 + primeP), (5, 6)])) = some 2 := by decide
/-- E10 and E10c. -/
theorem test_ponc :
    flagsAfter (exec (.ponc 3) (withElems [(6, genX), (7, genY)])) = some 4 ∧
      flagsAfter (exec (.ponc 3) State.reset) = some 0 := by decide
/-- E11c: the parity is that of the old x. -/
theorem test_pcomp_overlap :
    (after (exec (.pcomp 0 0) (withElems [(0, genX), (1, genY)]))).map (fun t => (t.readE 0, t.readE 1, t.flags.xlsb)) =
      some (primeP - 4, primeP - 4, false) := by decide

/-! ### Steps (95_test_vectors.md sections 6 and 7) -/

/-- X1: IllegalOpcode. -/
theorem test_step_illegal_opcode :
    (after (step (State.reset.withFetchWord 32 0x00000001))).map (fun t => (t.statusWord, t.errInfo)) =
      some (0x00000106, 0x00000001) := by decide
/-- X8: a BusyViolation. -/
theorem test_busy_violation :
    (after (step { State.reset with busy := true, schedule := [.hostWrite 0x260 9] })).map (fun t =>
      (t.statusWord, t.errInfo)) = some (0x00000605, 0x00000260) := by decide
/-- R53: a read of scratchpad byte 0 at reset. -/
theorem test_read_unwritten : faultOf (step { State.reset with schedule := [.hostRead 0x1000] }) = some .unwrittenRead := by
  decide
/-- R1 of the reset vectors: 13 bits kept. -/
theorem test_arg_addr_13_bits :
    (after (step { State.reset with schedule := [.hostWrite 0x10 0xFFFFFFFF] })).map (fun t => t.argAddr) =
      some 0x1FFF := by decide
/-- R51: a write below, between and at the same address keeps the canonical form. -/
theorem test_memory_canonical :
    writeByte (writeByte (writeByte [(5, 1)] 3 2) 4 3) 5 4 = [(3, 2), (4, 3), (5, 4)] := by decide

/-! ### Witnesses: for each statement with hypotheses, states and operands that meet them all, clause by clause -/

/-- The reset state with the turns still to come. -/
def turns (l : List Turn) : State := { State.reset with schedule := l }

/-- A state with the command word `w` in flight and the turns still to come. -/
def inFlight (w : Word) (l : List Turn) : State := { turns l with busy := true, cmdL := w }

/-- A state in which an error is recorded. -/
def failed (l : List Turn) : State := { turns l with err := true, errCode := some .range, errInfo := 0x11, done := true }

/-- A state with bytes written from address `a` on, and the range latched. -/
def written (p : Phase) (a n : Nat) : State :=
  { spongeState p .sha3_256 a n with scratch := writeBytes [] a (List.replicate n 0xA3) }

/-- The generator in P0. -/
def withG : State := withElems [(0, genX), (1, genY)]

theorem test_witness_decodeOfEncode : (Instr.kinit 5).wellFormed = true ∧ (Instr.pdec 7 15 true).wellFormed = true := by decide
theorem test_witness_encodeOfDecode : decode 0x05000010 = .ok (.kinit 5) ∧ decode 0x00EFFF20 = .error .illegalField := by
  decide
theorem test_witness_stepRunsLatchedCommand :
    (inFlight 0x05000010 [.engine]).busy = true ∧ decode (inFlight 0x05000010 [.engine]).cmdL = .ok (.kinit 5) ∧
    (inFlight 0x05000010 [.engine]).schedule = [.engine] ∧ (inFlight 0x05000010 []).schedule = [] ∧
    (turns [.engine]).busy = false ∧ (turns []).busy = false := by decide
theorem test_witness_stepRecordsDecodeError :
    decode (inFlight 0x49 [.engine]).cmdL = .error .illegalOpcode ∧
    decode (inFlight 0x06000010 [.engine]).cmdL = .error .illegalField ∧ (inFlight 0x49 [.engine]).err = false ∧
    (inFlight 0x49 [.engine]).busy = true ∧
    ({ failed [.engine] with busy := true, cmdL := 0x49 } : State).err = true := by decide
theorem test_witness_commandWriteThenEngineTurn :
    let s := turns [.hostWrite 0x000C 0x12, .engine]
    s.busy = false ∧ s.err = false ∧ decode 0x12 = .ok .kfin ∧ s.schedule = .hostWrite 0x000C 0x12 :: .engine :: [] := by
  decide
theorem test_witness_everyCommandCompletes :
    ∃ t, Sys2Proof.core.run ((turns [.hostWrite 0x000C 0x00]).schedule.length + 1) (turns [.hostWrite 0x000C 0x00]) =
      .next t := ⟨_, rfl⟩
theorem test_witness_commandWriteOutcomes :
    (turns [.hostWrite 0x000C 1]).busy = false ∧ (turns [.hostWrite 0x000C 1]).err = false ∧
    (failed [.hostWrite 0x000C 1]).busy = false ∧ (failed [.hostWrite 0x000C 1]).err = true ∧
    (inFlight 0 [.hostWrite 0x000C 1]).busy = true ∧ (inFlight 0 [.hostWrite 0x000C 1]).err = false ∧
    ({ failed [.hostWrite 0x000C 1] with busy := true } : State).schedule = [.hostWrite 0x000C 1] := by decide
theorem test_witness_protectedWrites :
    (∀ off ∈ [0x000C, 0x0010, 0x0014, 0x0200, 0x03FC, 0x1000, 0x1FFC], (BitVec.ofNat 13 off).toNat % 4 = 0 ∧
      isProtected (windowReg off) = true) ∧
    (inFlight 0 [.hostWrite 0x1FFC 1]).schedule = .hostWrite 0x1FFC 1 :: [] ∧ (inFlight 0 []).busy = true ∧
    (inFlight 0 []).err = false ∧ ({ failed [] with busy := true } : State).err = true := by decide
theorem test_witness_modelFaults :
    (0x1FFF : Offset).toNat % 4 ≠ 0 ∧ (turns [.hostRead 0x1FFF]).schedule = .hostRead 0x1FFF :: [] ∧
    (turns [.hostWrite 1 0]).schedule = .hostWrite 1 0 :: [] ∧
    (0x1FFC : Offset).toNat % 4 = 0 ∧ readByte (turns [.hostRead 0x1FFC]).scratch (0x1FFC - 0x1000 + 3) = none ∧
    (let s := spongeState .absorbing .sha3_256 4032 64
     s.addrL.toNat + s.lenL.toNat ≤ 4096 ∧ 63 < s.lenL.toNat ∧ readByte s.scratch (s.addrL.toNat + 63) = none ∧
      s.sponge.phase = .absorbing ∧ s.lenL.toNat ≤ 64) := by decide
theorem test_witness_hostReadsKeepSpecState :
    ∃ t, step (turns [.hostRead 0x0000]) = .next t ∧ (turns [.hostRead 0x0000]).schedule = .hostRead 0x0000 :: [] :=
  ⟨_, rfl, rfl⟩
theorem test_witness_volatileReads :
    (∀ off ∈ [0x0018, 0x001C, 0x0100, 0x01C4, 0x0200, 0x03FC, 0x1000, 0x1FFC],
      (BitVec.ofNat 13 off).toNat % 4 = 0 ∧ (BitVec.ofNat 13 off).toNat = off ∧ isVolatile (windowReg off) = true) ∧
    (inFlight 0 [.hostRead 0x1FFC]).busy = true ∧ (inFlight 0 [.hostRead 0x1FFC]).schedule = .hostRead 0x1FFC :: [] := by
  decide
theorem test_witness_scratchWindow :
    1023 < 1024 ∧ (turns []).busy = false ∧
    (turns [.hostWrite 0x1FFC 7]).schedule = .hostWrite (BitVec.ofNat 13 (0x1000 + 4 * 1023)) 7 :: [] ∧
    (let s : State := { turns [.hostRead 0x1FFC] with scratch := [(4092, 4), (4093, 3), (4094, 2), (4095, 1)] }
     s.schedule = .hostRead (BitVec.ofNat 13 (0x1000 + 4 * 1023)) :: [] ∧
      ∀ j < 4, readByte s.scratch (4 * 1023 + j) = some ((0x01020304 : Word).extractLsb' (8 * j) 8)) := by decide
theorem test_witness_elementWindow :
    (7 < 8) ∧ (turns [.hostWrite 0x03FC 1]).busy = false ∧
    (turns [.hostWrite 0x03FC 1]).schedule = .hostWrite (BitVec.ofNat 13 (0x0200 + 32 * (15 : EReg).val + 4 * 7)) 1 :: [] ∧
    (turns [.hostRead 0x0200]).schedule = .hostRead (BitVec.ofNat 13 (0x0200 + 32 * (0 : EReg).val + 4 * 0)) :: [] := by
  decide
theorem test_witness_keccakStateWindow :
    49 < 50 ∧ (turns []).busy = false ∧
    (turns [.hostRead 0x01C4]).schedule = .hostRead (BitVec.ofNat 13 (0x0100 + 4 * 49)) :: [] ∧
    (turns [.hostWrite 0x0100 1]).schedule = .hostWrite (BitVec.ofNat 13 (0x0100 + 4 * 0)) 1 :: [] := by decide
theorem test_witness_reservedOffsets :
    (∀ off ∈ [0x0024, 0x00FC, 0x01C8, 0x01FC, 0x0400, 0x0FFC],
      (BitVec.ofNat 13 off).toNat % 4 = 0 ∧ windowReg (BitVec.ofNat 13 off).toNat = .reserved) ∧
    (∀ off ∈ [0x0000, 0x0018, 0x001C, 0x0020, 0x0100, 0x01C4], (BitVec.ofNat 13 off).toNat % 4 = 0) ∧
    (turns [.hostRead 0x0FFC]).schedule = .hostRead 0x0FFC :: [] ∧
    (turns [.hostWrite 0x01C4 1]).schedule = .hostWrite 0x01C4 1 :: [] := by decide
theorem test_witness_statusWrite : (failed [.hostWrite 0x0008 6]).schedule = .hostWrite 0x0008 6 :: [] := by decide
theorem test_witness_controlRegister :
    (turns [.hostWrite 0x0004 7]).schedule = .hostWrite 0x0004 7 :: [] ∧ (7 : Word).getLsbD 0 = true ∧
    (6 : Word).getLsbD 0 = false ∧ (turns [.hostRead 0x0004]).schedule = .hostRead 0x0004 :: [] := by decide
theorem test_witness_argumentRegisters :
    (turns []).busy = false ∧ (turns [.hostWrite 0x0010 0xFFFFFFFF]).schedule = .hostWrite 0x0010 0xFFFFFFFF :: [] ∧
    (turns [.hostWrite 0x0014 1]).schedule = .hostWrite 0x0014 1 :: [] ∧
    (turns [.hostRead 0x0010]).schedule = .hostRead 0x0010 :: [] ∧
    (turns [.hostRead 0x0014]).schedule = .hostRead 0x0014 :: [] := by decide
theorem test_witness_registerReads :
    ∀ off ∈ [0x0000, 0x000C, 0x0020, 0x0008, 0x0018, 0x001C],
      (turns [.hostRead (BitVec.ofNat 13 off)]).schedule = .hostRead (BitVec.ofNat 13 off) :: [] ∧
      (turns [.hostRead (BitVec.ofNat 13 off)]).busy = false := by decide
theorem test_witness_resetValues :
    (inFlight 0x11 [.hardReset]).schedule = .hardReset :: [] ∧
    (failed [.hostWrite 0x0004 1]).schedule = .hostWrite 0x0004 1 :: [] ∧ (1 : Word).getLsbD 0 = true := by decide
theorem test_witness_failingCommandsArePrecise :
    (∃ t, exec .nop State.reset = .next t) ∧ ∃ t, exec (.finv .r 15 0) State.reset = .next t := ⟨⟨_, rfl⟩, ⟨_, rfl⟩⟩
theorem test_witness_commandsRaiseOnlyTheirErrors :
    Instr.kfin.wellFormed = true ∧ (∀ pd rs1 lsb, Instr.kfin ≠ .pdec pd rs1 lsb) ∧ State.reset.err = false ∧
      State.reset.errCode = none ∧ ∃ t, exec .kfin State.reset = .next t ∧ t.errCode = some .spongeState :=
  ⟨rfl, by simp, rfl, rfl, _, rfl, rfl⟩
theorem test_witness_spongePhaseTable :
    (5 : BitVec 3).toNat ≤ 5 ∧ (spongeState .uninit .sha3_224 0 0).sponge.phase ≠ .absorbing ∧
    (spongeState .absorbing .sha3_512 0 0).sponge.phase ≠ .squeezing ∧
    4 ≤ variantCode (spongeState .absorbing .shake128 0 0).sponge.variant ∧
    (spongeState .squeezing .sha3_256 0 0).sponge.phase = .squeezing ∧
    (let s := spongeState .absorbing .sha3_512 4032 0
     s.sponge.phase = .absorbing ∧ variantCode s.sponge.variant ≤ 3 ∧ s.addrL.toNat + 64 ≤ 4096) := by decide
theorem test_witness_spongePhaseTable_next :
    (∃ t, exec .kabs (spongeState .absorbing .sha3_512 4096 0) = .next t) ∧
    ∃ t, exec .ksqz (spongeState .squeezing .sha3_512 4096 0) = .next t := ⟨⟨_, rfl⟩, ⟨_, rfl⟩⟩
theorem test_witness_rangeRefusals :
    (let s := spongeState .absorbing .sha3_224 4069 8191
     s.sponge.phase = .absorbing ∧ 4096 < s.addrL.toNat + s.lenL.toNat ∧ digestLen s.sponge.variant = some 28 ∧
      4096 < s.addrL.toNat + 28 ∧ 64 < s.lenL.toNat ∧ 4096 < s.addrL.toNat + 32) ∧
    (let s := spongeState .squeezing .sha3_224 4096 1
     s.sponge.phase = .squeezing ∧ 4096 < s.addrL.toNat + s.lenL.toNat) := by decide
theorem test_witness_firstErrorIsKept :
    (failed [.hostWrite 0x0008 2]).err = true ∧ (∃ t, step (failed [.hostWrite 0x0008 2]) = .next t) ∧
    (∀ v rest, (failed [.hostWrite 0x0008 2]).schedule = .hostWrite 0x0008 v :: rest → v.getLsbD 2 = false) ∧
    (∀ v rest, (failed [.hostWrite 0x0008 2]).schedule = .hostWrite 0x0004 v :: rest → v.getLsbD 0 = false) ∧
    ∀ rest, (failed [.hostWrite 0x0008 2]).schedule ≠ .hardReset :: rest := by
  refine ⟨rfl, ⟨_, rfl⟩, fun v rest h => ?_, fun v rest h => ?_, fun rest h => ?_⟩
  · injection h with h; injection h with _ h; subst h; rfl
  · injection h with h; injection h with h; exact absurd h (by decide)
  · injection h with h; cases h
theorem test_witness_stepKeepsInvariant :
    (failed [.hostWrite 0x0008 4]).inv ∧ ∃ t, step (failed [.hostWrite 0x0008 4]) = .next t := ⟨by decide, _, rfl⟩
theorem test_witness_commandsTouchOnlyTheirUnits :
    (∃ t, exec (.fmov 1 2) State.reset = .next t) ∧ writesSponge (.fmov 1 2) = false ∧ writesScratch (.fmov 1 2) = false ∧
    elementDest (.fmov 1 2) ≠ some 2 ∧ ∀ k, pointDest (.pneut 1) = some k → (4 : EReg).val ≠ 2 * k.val ∧
      (4 : EReg).val ≠ 2 * k.val + 1 :=
  ⟨⟨_, rfl⟩, rfl, rfl, by decide, by decide⟩
theorem test_witness_flagWriters :
    (∃ t, exec (.finv .p 1 2) State.reset = .next t ∧ t.err = true) ∧ State.reset.err = false ∧
    writesZ (.ponc 0) = false ∧ writesEq .nop = false ∧ writesOnc .nop = false ∧ writesXlsb .nop = false ∧
    writesNoroot .nop = false ∧ writesNotors .nop = false ∧ writesIso (.pcomp 0 0) = false :=
  ⟨⟨_, rfl, rfl⟩, rfl, rfl, rfl, rfl, rfl, rfl, rfl, rfl⟩
theorem test_witness_idleLatchUnobservable : (turns [.hostWrite 0x000C 0x12]).busy = false := by decide
theorem test_witness_stateByteView : 199 < 200 ∧ 4 < 5 := by decide
theorem test_witness_controlAndStartResults : (5 : BitVec 3).toNat ≤ 5 ∧ 5 < (6 : BitVec 3).toNat := by decide
theorem test_witness_blockSteps :
    (let k : Sponge := { startSponge .sha3_256 with pos := 134 }
     k.pos.toNat < k.rate.toNat ∧ k.pos.toNat + 1 < k.rate.toNat) ∧
    (let k : Sponge := { startSponge .sha3_256 with pos := 135 }
     k.pos.toNat < k.rate.toNat ∧ k.pos.toNat + 1 = k.rate.toNat) := by decide
theorem test_witness_kabsResult :
    let s := written .absorbing 4094 2
    s.sponge.phase = .absorbing ∧ s.addrL.toNat + s.lenL.toNat ≤ 4096 ∧
      ∀ i < s.lenL.toNat, readByte s.scratch (s.addrL.toNat + i) = some 0xA3 := by decide
theorem test_witness_splitAbsorb :
    (let s := written .absorbing 4094 2
     s.sponge.phase = .absorbing ∧ s.lenL.toNat = 1 + 1 ∧ s.addrL.toNat + s.lenL.toNat ≤ 4096) ∧
    ∃ t, exec .kabs (written .absorbing 4094 2) = .next t := ⟨by decide, _, rfl⟩
theorem test_witness_kfinResult :
    let s : State := { State.reset with sponge := { startSponge .shake256 with pos := 135 } }
    s.sponge.phase = .absorbing ∧ s.sponge.pos.toNat = s.sponge.rate.toNat - 1 ∧ s.sponge.pos.toNat < 200 := by decide
theorem test_witness_ksqzResult_splitSqueeze :
    let s := spongeState .squeezing .shake128 3928 168
    s.sponge.phase = .squeezing ∧ s.lenL.toNat = 100 + 68 ∧ s.addrL.toNat + s.lenL.toNat ≤ 4096 := by decide
theorem test_witness_kdigIsFinalizeThenSqueeze :
    let s := spongeState .absorbing .sha3_512 4032 0
    s.sponge.phase = .absorbing ∧ variantCode s.sponge.variant ≤ 3 ∧
      64 = [28, 32, 48, 64].getD (variantCode s.sponge.variant) 0 ∧ s.addrL.toNat + 64 ≤ 4096 ∧
      s.sponge.rate.toNat = variantRate s.sponge.variant := by decide
theorem test_witness_finvResult :
    (withElems [(1, 2)]).e[1].toNat % modulusValue .r ≠ 0 ∧ (withElems [(1, primeP)]).e[1].toNat % modulusValue .p = 0 := by
  decide
/-- Neither is a square, by Euler's criterion. -/
theorem test_nonresidues : powMod primeP 5 (primeP / 2) ≠ 1 ∧ powMod primeP (3 * (4 * curveD - 1)) (primeP / 2) ≠ 1 := by
  decide +kernel
/-- F30: 5 has no square root, by Euler's criterion. -/
theorem test_witness_fsqrtResult :
    (∃ x, x * x % primeP = (withElems [(1, 4)]).e[1].toNat % primeP) ∧ (withElems [(1, 4)]).e[1].toNat % primeP ≠ 0 ∧
    ∀ x, x * x % primeP ≠ (withElems [(1, 5)]).e[1].toNat % primeP := by
  refine ⟨⟨2, by decide⟩, by decide, fun x hx => not_isSquare_of_powMod (n := 5) (by decide) test_nonresidues.1 ⟨x, ?_⟩⟩
  rw [← Nat.cast_mul, ZMod.natCast_eq_natCast_iff', hx]
  decide
theorem test_witness_ldbeResult :
    let s := written .uninit 4032 64
    s.lenL.toNat ≤ 64 ∧ s.addrL.toNat + s.lenL.toNat ≤ 4096 ∧
      ∀ i < s.lenL.toNat, readByte s.scratch (s.addrL.toNat + i) = some 0xA3 := by decide
theorem test_witness_stbeResult : (spongeState .uninit .sha3_224 4064 0).addrL.toNat + 32 ≤ 4096 := by decide
/-- The generator added to itself, and the operands of E12 and E13. -/
theorem test_witness_paddResult :
    (let dd : Int := 15343 * genX * genX * genY * genY
     (1 + dd) % (primeP : Nat) ≠ 0 ∧ (1 - dd) % (primeP : Nat) ≠ 0) ∧
    (1 + 15343 * 1 * 1 * 1 * 0xf7d304524a840bd025a443e0080244e8db938bf02eb7e74e563205a3bb30c492 : Int) % (primeP : Nat) = 0 ∧
    (1 - 15343 * 1 * 1 * 1 * 0x082cfbadb57bf42fda5bbc1ff7fdbb17246c740fd14818b1a9cdfa5c44cf3ab1 : Int) % (primeP : Nat) = 0 := by
  decide
theorem test_witness_curveAddition_pmulOnCurve :
    onCurve generator = true ∧ onCurve neutral = true ∧ onCurve (withG.readPoint 0) = true := by decide
theorem test_witness_neutralAndNegation :
    generator.1 < primeP ∧ generator.2 < primeP ∧ onCurve generator = true := by decide
/-- E15h: no x goes with y = 2, since 3 (4 d - 1) is no square. -/
theorem test_witness_pdecResult_noRoot : ∀ x < primeP, onCurve (x, 2) = false := by
  intro x _
  rw [Bool.eq_false_iff]
  intro h
  have h := (modInt_eq_zero_iff primeP_pos _).mp (of_decide_eq_true h)
  refine not_isSquare_of_powMod (n := 3 * (4 * curveD - 1)) (by decide) test_nonresidues.2 ⟨x * (4 * curveD - 1), ?_⟩
  have hd : ((3 * (4 * curveD - 1) : Nat) : ZMod primeP) = 3 * (4 * (curveD : ZMod primeP) - 1) := by
    rw [show 4 * curveD - 1 = 61371 from rfl]; simp [curveD]; ring
  rw [hd]
  push_cast at h
  linear_combination (4 * (curveD : ZMod primeP) - 1) * h
/-- Scalar 0; scalar 2 on an off-curve point with d x^2 y^2 = -1, which needs the inverse of 0; r takes G to O (R134); E15g:
the point with y = p - 1 has x = 0, and r does not take it to O. -/
theorem test_witness_pmulResult_pdecResult_decompression :
    edMulRaw generator (0 % orderR) = some (0, 1) ∧
    edMulRaw (1, 0x18fc9ed87c3fb05f28b80fbcdff4e5e479707e682448fc3a714b8c8842b5452e) (2 % orderR) = none ∧
    onCurve generator = true ∧ onCurve (0, primeP - 1) = true ∧ withG.readPoint 0 = generator ∧
    edMulRaw generator orderR = some (0, 1) ∧ edMulRaw (0, primeP - 1) orderR = some (0, primeP - 1) := by decide +kernel

end Sys2Proof.Tests
end

section
/-! What a command that answers a next state did, said once for all 28 commands: the frame of its writes, and what they
keep of the invariant. From it the invariant of every step (O30, O31), the frame (O32) and the flag table (O33). -/

namespace Sys2Proof.Machine

/-! ### The effect of a command -/

/-- What the state `t` that command `i` commits in state `s` has to do with `s`: only the units the command may write
differ (R25, R32, R33, R35, R52), and the sponge registers and the scratchpad keep their form (R30, R31, R51). -/
structure CommandEffect (i : Instr) (s t : State) : Prop where
  rest : { t with sponge := s.sponge, e := s.e, flags := s.flags, scratch := s.scratch } = s
  sponge : writesSponge i = false → t.sponge = s.sponge
  scratch : writesScratch i = false → t.scratch = s.scratch
  elements : ∀ n : EReg, elementDest i ≠ some n →
    (∀ k, pointDest i = some k → n.val ≠ 2 * k.val ∧ n.val ≠ 2 * k.val + 1) → t.e[n] = s.e[n]
  z : writesZ i = false → t.flags.z = s.flags.z
  eq : writesEq i = false → t.flags.eq = s.flags.eq
  onc : writesOnc i = false → t.flags.onc = s.flags.onc
  xlsb : writesXlsb i = false → t.flags.xlsb = s.flags.xlsb
  noroot : writesNoroot i = false → t.flags.noroot = s.flags.noroot
  notors : writesNotors i = false → t.flags.notors = s.flags.notors
  iso : writesIso i = false → t.flags.iso = s.flags.iso
  keepsSponge : spongeOk s.sponge → spongeOk t.sponge
  keepsScratch : Memory.wf s.scratch = true → Memory.wf t.scratch = true

namespace CommandEffect

variable {i : Instr} {s t : State}

theorem refl (i : Instr) (s : State) : CommandEffect i s s :=
  ⟨rfl, fun _ => rfl, fun _ => rfl, fun _ _ _ => rfl, fun _ => rfl, fun _ => rfl, fun _ => rfl, fun _ => rfl,
    fun _ => rfl, fun _ => rfl, fun _ => rfl, id, id⟩

/-! Each write of the model, allowed by its row of the table of writers, adds to an effect. -/

theorem setSponge (h : CommandEffect i s t) {k : Sponge} (hi : writesSponge i = true)
    (hk : spongeOk s.sponge → spongeOk k) : CommandEffect i s { t with sponge := k } :=
  { h with sponge := fun hn => by simp [hi] at hn, keepsSponge := hk }

theorem setScratch (h : CommandEffect i s t) {m : Memory} (hi : writesScratch i = true)
    (hm : Memory.wf s.scratch = true → Memory.wf m = true) : CommandEffect i s { t with scratch := m } :=
  { h with scratch := fun hn => by simp [hi] at hn, keepsScratch := hm }

theorem writeE (h : CommandEffect i s t) {rd : EReg} {v : Nat} (hi : elementDest i = some rd) :
    CommandEffect i s (t.writeE rd v) :=
  { h with
    elements := fun n hn hk => by
      have hne : rd.val ≠ n.val := fun he => hn (Fin.ext he ▸ hi)
      rw [writeE_e, Fin.getElem_fin, Vector.getElem_set_ne _ _ hne]
      exact h.elements n hn hk }

theorem writeField (h : CommandEffect i s t) {rd : EReg} {v : Nat} (hi : elementDest i = some rd)
    (hz : writesZ i = true) : CommandEffect i s (t.writeField rd v) :=
  { h.writeE (v := v) hi with z := fun hn => by simp [hz] at hn }

theorem writePoint (h : CommandEffect i s t) {pd : PReg} {q : Point} (hi : pointDest i = some pd)
    (ho : writesIso i = true) : CommandEffect i s (t.writePoint pd q) :=
  { h with
    elements := fun n hn hk => by
      obtain ⟨hx, hy⟩ := hk pd hi
      rw [writePoint_e, Fin.getElem_fin, Vector.getElem_set_ne (i := yReg pd) _ _ (Ne.symm hy),
        Vector.getElem_set_ne (i := xReg pd) _ _ (Ne.symm hx)]
      exact h.elements n hn hk
    iso := fun hn => by simp [ho] at hn }

theorem setEq (h : CommandEffect i s t) {b : Bool} (hi : writesEq i = true) : CommandEffect i s (t.setEq b) :=
  { h with eq := fun hn => by simp [hi] at hn }

theorem setOnc (h : CommandEffect i s t) {b : Bool} (hi : writesOnc i = true) : CommandEffect i s (t.setOnc b) :=
  { h with onc := fun hn => by simp [hi] at hn }

theorem setXlsb (h : CommandEffect i s t) {b : Bool} (hi : writesXlsb i = true) : CommandEffect i s (t.setXlsb b) :=
  { h with xlsb := fun hn => by simp [hi] at hn }

theorem setNoroot (h : CommandEffect i s t) {b : Bool} (hi : writesNoroot i = true) :
    CommandEffect i s (t.setNoroot b) :=
  { h with noroot := fun hn => by simp [hi] at hn }

theorem setNotors (h : CommandEffect i s t) {b : Bool} (hi : writesNotors i = true) :
    CommandEffect i s (t.setNotors b) :=
  { h with notors := fun hn => by simp [hi] at hn }

end CommandEffect

/-- What a command's rule may end in: its writes, an error other than BusyViolation, which only a host write raises
(R154), or the model fault of R53. -/
inductive CommandResult (i : Instr) (s : State) : Except Stop State → Prop where
  | writes {t : State} (h : CommandEffect i s t) : CommandResult i s (.ok t)
  | raises (x : ErrorName) (h : x ≠ .busyViolation) : CommandResult i s (.error (.raise x))
  | faults (f : Fault) : CommandResult i s (.error (.fault f))

/-- The range check passes exactly where the last byte is inside the scratchpad (R86). -/
theorem outOfRange_eq_false_iff {a n : Nat} : outOfRange a n = false ↔ a + n ≤ scratchBytes := by
  simp [outOfRange]

theorem spongeOk_resetSponge : spongeOk resetSponge := by decide

/-- KPERM's cursor 0 is inside the block, and 0 in UNINIT (R31, R99). -/
theorem spongeOk_permuted {k : Sponge} (h : spongeOk k) (a : KeccakState) : spongeOk { k with a := a, pos := 0 } := by
  obtain ⟨hu, hp⟩ := h
  refine ⟨fun hk => ⟨(hu hk).1, rfl⟩, fun hk => ⟨(hp hk).1, ?_⟩⟩
  exact Nat.zero_lt_of_lt (hp hk).2

/-- A point result, or NoInverse (R139, R141). -/
theorem result_writePointOrNoInverse {i : Instr} {s : State} {pd : PReg} (hi : pointDest i = some pd)
    (ho : writesIso i = true) (r : Option Point) : CommandResult i s (s.writePointOrNoInverse pd r) := by
  cases r with
  | none => exact .raises _ (by decide)
  | some q => exact .writes ((CommandEffect.refl i s).writePoint hi ho)

/-- Output bytes inside the scratchpad, with the sponge they leave (R108, R109). -/
theorem CommandEffect.squeezed {i : Instr} {s : State} {n : Nat} {k : Sponge} (hs : writesSponge i = true)
    (hm : writesScratch i = true) (hr : outOfRange s.addr n = false) (hp : k.phase ≠ .uninit)
    (hk : spongeOk s.sponge → spongeOk k) :
    CommandEffect i s { s with sponge := (squeeze n k).2, scratch := writeBytes s.scratch s.addr (squeeze n k).1 } :=
  ((CommandEffect.refl i s).setSponge hs fun h => spongeOk_squeeze (hk h) hp n).setScratch hm fun h =>
    writeBytes_wf _ h (by simpa using outOfRange_eq_false_iff.mp hr)

theorem exec_kinit_result (v : BitVec 3) (s : State) :
    ∃ r, exec (.kinit v) s = s.commit r ∧ CommandResult (.kinit v) s r := by
  refine ⟨_, rfl, ?_⟩
  split
  · exact .raises _ (by decide)
  · next x _ => exact .writes ((CommandEffect.refl _ s).setSponge rfl fun _ => spongeOk_startSponge x)

theorem exec_kabs_result (s : State) : ∃ r, exec .kabs s = s.commit r ∧ CommandResult .kabs s r := by
  refine ⟨_, rfl, ?_⟩
  split
  · exact .raises _ (by decide)
  next hp =>
    have hp : s.sponge.phase = .absorbing := not_not.mp hp
    split
    · exact .raises _ (by decide)
    split
    · exact .faults _
    · exact .writes ((CommandEffect.refl _ s).setSponge rfl fun h => spongeOk_absorb h (by simp [hp]) _)

theorem exec_kfin_result (s : State) : ∃ r, exec .kfin s = s.commit r ∧ CommandResult .kfin s r := by
  refine ⟨_, rfl, ?_⟩
  split
  · exact .raises _ (by decide)
  next hp =>
    have hp : s.sponge.phase = .absorbing := not_not.mp hp
    exact .writes ((CommandEffect.refl _ s).setSponge rfl fun h => spongeOk_padFinal h (by simp [hp]))

theorem exec_ksqz_result (s : State) : ∃ r, exec .ksqz s = s.commit r ∧ CommandResult .ksqz s r := by
  refine ⟨_, rfl, ?_⟩
  split
  · exact .raises _ (by decide)
  next hp =>
    have hp : s.sponge.phase = .squeezing := not_not.mp hp
    split
    · exact .raises _ (by decide)
    next hr => exact .writes (.squeezed rfl rfl (by simpa using hr) (by simp [hp]) id)

theorem exec_kdig_result (s : State) : ∃ r, exec .kdig s = s.commit r ∧ CommandResult .kdig s r := by
  refine ⟨_, rfl, ?_⟩
  split
  · exact .raises _ (by decide)
  next hp =>
    have hp : s.sponge.phase = .absorbing := not_not.mp hp
    split
    · exact .raises _ (by decide)
    split
    · exact .raises _ (by decide)
    next hr =>
      exact .writes (.squeezed rfl rfl (by simpa using hr) (by simp [padFinal])
        fun h => spongeOk_padFinal h (by simp [hp]))

theorem exec_finv_result (m : Modulus) (rd rs1 : EReg) (s : State) :
    ∃ r, exec (.finv m rd rs1) s = s.commit r ∧ CommandResult (.finv m rd rs1) s r := by
  refine ⟨_, rfl, ?_⟩
  split
  · exact .raises _ (by decide)
  · exact .writes ((CommandEffect.refl _ s).writeField rfl rfl)

theorem exec_fsqrt_result (rd rs1 : EReg) (lsb : Bool) (s : State) :
    ∃ r, exec (.fsqrt rd rs1 lsb) s = s.commit r ∧ CommandResult (.fsqrt rd rs1 lsb) s r := by
  refine ⟨_, rfl, ?_⟩
  split
  · exact .writes ((CommandEffect.refl _ s).setNoroot rfl)
  · exact .writes (((CommandEffect.refl _ s).writeField rfl rfl).setNoroot rfl)

theorem exec_ldbe_result (m : Modulus) (rd : EReg) (s : State) :
    ∃ r, exec (.ldbe m rd) s = s.commit r ∧ CommandResult (.ldbe m rd) s r := by
  refine ⟨_, rfl, ?_⟩
  split
  · exact .raises _ (by decide)
  split
  · exact .raises _ (by decide)
  split
  · exact .faults _
  · exact .writes ((CommandEffect.refl _ s).writeField rfl rfl)

theorem exec_stbe_result (rs1 : EReg) (s : State) :
    ∃ r, exec (.stbe rs1) s = s.commit r ∧ CommandResult (.stbe rs1) s r := by
  refine ⟨_, rfl, ?_⟩
  split
  · exact .raises _ (by decide)
  next hr =>
    exact .writes ((CommandEffect.refl _ s).setScratch rfl fun h =>
      writeBytes_wf _ h (by simpa using outOfRange_eq_false_iff.mp (Bool.not_eq_true _ ▸ hr)))

theorem exec_pdec_result (pd : PReg) (rs1 : EReg) (lsb : Bool) (s : State) :
    ∃ r, exec (.pdec pd rs1 lsb) s = s.commit r ∧ CommandResult (.pdec pd rs1 lsb) s r := by
  have point : ∀ (q : Point) (noroot notors : Bool), CommandEffect (.pdec pd rs1 lsb) s
      (((s.writePoint pd q).setNoroot noroot).setNotors notors) := fun _ _ _ =>
    (((CommandEffect.refl _ s).writePoint rfl rfl).setNoroot rfl).setNotors rfl
  refine ⟨_, rfl, ?_⟩
  split
  · exact .raises _ (by decide)
  · exact .writes (point _ _ _)
  · exact .writes (point _ _ _)
  · exact .writes (point _ _ _)

/-- Every command ends in one commit, of its allowed writes, of an error that is no BusyViolation, or of the fault. -/
theorem exec_result (i : Instr) (s : State) : ∃ r, exec i s = s.commit r ∧ CommandResult i s r := by
  cases i with
  | nop => exact ⟨_, rfl, .writes (.refl _ s)⟩
  | kinit v => exact exec_kinit_result v s
  | kabs => exact exec_kabs_result s
  | kfin => exact exec_kfin_result s
  | ksqz => exact exec_ksqz_result s
  | kdig => exact exec_kdig_result s
  | kperm => exact ⟨_, rfl, .writes ((CommandEffect.refl _ s).setSponge rfl fun h => spongeOk_permuted h _)⟩
  | krel => exact ⟨_, rfl, .writes ((CommandEffect.refl _ s).setSponge rfl fun _ => spongeOk_resetSponge)⟩
  | fadd | fsub | fmul | fpow | fneg | fred | fmov =>
    exact ⟨_, rfl, .writes ((CommandEffect.refl _ s).writeField rfl rfl)⟩
  | finv m rd rs1 => exact exec_finv_result m rd rs1 s
  | fsqrt rd rs1 lsb => exact exec_fsqrt_result rd rs1 lsb s
  | ldbe m rd => exact exec_ldbe_result m rd s
  | stbe rs1 => exact exec_stbe_result rs1 s
  | pneut | pgen | pneg => exact ⟨_, rfl, .writes ((CommandEffect.refl _ s).writePoint rfl rfl)⟩
  | padd | pmul => exact ⟨_, rfl, result_writePointOrNoInverse rfl rfl _⟩
  | peq => exact ⟨_, rfl, .writes ((CommandEffect.refl _ s).setEq rfl)⟩
  | ponc => exact ⟨_, rfl, .writes ((CommandEffect.refl _ s).setOnc rfl)⟩
  | pcomp => exact ⟨_, rfl, .writes (((CommandEffect.refl _ s).writeE rfl).setXlsb rfl)⟩
  | pdec pd rs1 lsb => exact exec_pdec_result pd rs1 lsb s

/-- A command that answers a next state committed its allowed writes, or recorded an error that is no BusyViolation and
did nothing else (R83, R159). -/
theorem exec_next {i : Instr} {s t : State} (h : exec i s = .next t) :
    CommandEffect i s t ∨ ∃ x, x ≠ .busyViolation ∧ t = s.recordError x s.cmdL := by
  obtain ⟨r, hr, hres⟩ := exec_result i s
  rcases commit_next (hr ▸ h) with rfl | ⟨x, rfl, rfl⟩
  · cases hres with | writes he => exact .inl he
  · cases hres with | raises _ hx => exact .inr ⟨x, hx, rfl⟩

/-! ### The invariant -/

/-- Recording an error keeps the error registers in agreement where a BusyViolation comes with an offset (R45, R158). -/
theorem errorOk_recordError {s : State} (h : errorOk s) {x : ErrorName} {info : Word}
    (hx : x = .busyViolation → info.toNat < 2 ^ 13) : errorOk (s.recordError x info) := by
  cases he : s.err with
  | true => rwa [recordError_of_err he]
  | false =>
    rw [recordError_of_not_err he]
    exact ⟨nofun, nofun, fun hb => hx (Option.some.inj hb)⟩

theorem inv_recordError {s : State} (h : s.inv) {x : ErrorName} {info : Word}
    (hx : x = .busyViolation → info.toNat < 2 ^ 13) : (s.recordError x info).inv := by
  obtain ⟨hs, hm, he⟩ := h
  exact ⟨by simpa only [recordError_sponge] using hs, by simpa only [recordError_scratch] using hm,
    errorOk_recordError he hx⟩

theorem inv_reset : State.reset.inv := by
  have herr : errorOk State.reset := ⟨fun _ => ⟨rfl, rfl⟩, nofun, nofun⟩
  exact ⟨spongeOk_resetSponge, rfl, herr⟩

theorem inv_clearError {s : State} (h : s.inv) : s.clearError.inv := by
  obtain ⟨hs, hm, -⟩ := h
  exact ⟨hs, hm, fun _ => ⟨rfl, rfl⟩, nofun, nofun⟩

theorem inv_softReset {s : State} (h : s.inv) : s.softReset.inv := by
  obtain ⟨-, hm, -⟩ := h
  obtain ⟨hs, -, he⟩ := inv_reset
  exact ⟨hs, hm, he⟩

theorem inv_exec {i : Instr} {s t : State} (h : s.inv) (hx : exec i s = .next t) : t.inv := by
  obtain ⟨hs, hm, he⟩ := h
  rcases exec_next hx with hc | ⟨x, hb, rfl⟩
  · have herr : errorOk { t with sponge := s.sponge, e := s.e, flags := s.flags, scratch := s.scratch } :=
      hc.rest.symm ▸ he
    exact ⟨hc.keepsSponge hs, hc.keepsScratch hm, herr⟩
  · exact inv_recordError ⟨hs, hm, he⟩ fun h => absurd h hb

theorem decodeErrorName_ne_busyViolation (x : DecodeError) : decodeErrorName x ≠ .busyViolation := by
  cases x <;> decide

/-- The engine's turn keeps the invariant. -/
theorem inv_engineTurn {s t : State} (h : s.inv) (hx : engineTurn s = .next t) : t.inv := by
  rcases engineTurn_cases hx with ⟨-, ho⟩ | ⟨-, x, -, ho⟩ | ⟨-, i, -, ho⟩
  · cases ho; exact h
  · cases ho
    exact inv_recordError h fun hb => absurd hb (decodeErrorName_ne_busyViolation x)
  · cases hi : exec i s with
    | next u =>
      rw [hi] at ho
      cases ho
      have hu : u.inv := inv_exec h hi
      exact hu
    | fault f => rw [hi] at ho; cases ho
    | refused r => rw [hi] at ho; cases ho

/-- A scratchpad word of the window lies inside the scratchpad (R58). -/
theorem scratch_word_in_range {off a : Nat} (h : windowReg off = .scratch a) : a + 4 ≤ scratchBytes := by
  unfold windowReg at h
  iterate 11
    obtain ⟨-, h⟩ | ⟨-, h⟩ := ite_eq_iff.mp h
    · cases h
  obtain ⟨hoff, h⟩ | ⟨-, h⟩ := ite_eq_iff.mp h
  · injection h with ha
    simp only [scratchBytes]
    omega
  · cases h

theorem inv_writeStatus {s : State} (h : s.inv) (v : Word) : (s.writeStatus v).inv := by
  unfold State.writeStatus
  have hdone : State.inv (if v.getLsbD 1 then { s with done := false } else s) := by split <;> exact h
  dsimp only
  split
  · exact inv_clearError hdone
  · exact hdone

/-- A write to a window register keeps the invariant. -/
theorem inv_writeWindow {s : State} (h : s.inv) {off : Nat} (v : Word) : (s.writeWindow (windowReg off) v).inv := by
  cases hg : windowReg off with
  | ctrl =>
    show (s.writeCtrl v).inv
    unfold State.writeCtrl
    split
    · exact inv_softReset h
    · exact h
  | status => exact inv_writeStatus h v
  | cmd =>
    show (if s.err then s else s.acceptCommand v).inv
    split <;> exact h
  | scratch a =>
    obtain ⟨hs, hm, he⟩ := h
    exact ⟨hs, writeBytes_wf _ hm (scratch_word_in_range hg), he⟩
  | id | argAddr | argLen | flags | sponge | errInfo | kstate | ereg | reserved => exact h

theorem inv_hostWrite {s t : State} {off : Offset} {v : Word} (h : s.inv) (hx : hostWrite off v s = .next t) :
    t.inv := by
  obtain ⟨-, ⟨-, -, rfl⟩ | ⟨-, rfl⟩⟩ := hostWrite_next hx
  · refine inv_recordError h fun _ => ?_
    rw [BitVec.toNat_setWidth]
    exact lt_of_le_of_lt (Nat.mod_le _ _) off.isLt
  · exact inv_writeWindow h v

theorem inv_hostRead {s t : State} {off : Offset} (h : s.inv) (hx : hostRead off s = .next t) : t.inv := by
  rw [hostRead_next hx]
  exact h

theorem inv_takeTurn {s t : State} {u : Turn} (h : s.inv) (hx : takeTurn u s = .next t) : t.inv := by
  cases u with
  | hostRead off => exact inv_hostRead h hx
  | hostWrite off v => exact inv_hostWrite h hx
  | engine => exact inv_engineTurn h hx
  | hardReset => cases hx; exact inv_reset

/-- Settles O30: the engine's turn, each host transaction and each reset keep the invariant. -/
theorem stepKeepsInvariant : Obligations.StepKeepsInvariant := by
  intro s t h hx
  rcases step_cases hx with ⟨-, he⟩ | ⟨u, rest, -, hu⟩
  · exact inv_engineTurn h he
  · exact inv_takeTurn (s := { s with schedule := rest }) h hu

/-- Settles O31: `inv_reset`. -/
theorem resetMeetsInvariant : Obligations.ResetMeetsInvariant := inv_reset

/-! ### The frame and the flags -/

/-- Settles O32: the frame is part of `CommandEffect`, and recording an error writes none of these fields. -/
theorem commandsTouchOnlyTheirUnits : Obligations.CommandsTouchOnlyTheirUnits := by
  intro i s t h
  rcases exec_next h with hc | ⟨x, -, rfl⟩
  · refine ⟨hc.sponge, hc.scratch, hc.elements, ?_⟩
    rw [← hc.rest]
    simp
  · simp

/-- Settles O33: the flag table is part of `CommandEffect`, whose writes leave ERR, and recording an error writes no
flag. -/
theorem flagWriters : Obligations.FlagWriters := by
  refine ⟨fun i s t h => ?_, rfl⟩
  rcases exec_next h with hc | ⟨x, -, rfl⟩
  · refine ⟨hc.z, hc.eq, hc.onc, hc.xlsb, hc.noroot, hc.notors, hc.iso, fun hs ht => ?_⟩
    have herr : t.err = s.err := by rw [← hc.rest]
    rw [herr, hs] at ht
    cases ht
  · simp

end Sys2Proof.Machine
end

section
/-! The register window: one equation for a step that reads and one for a step that writes a register that is free to be
read or written, and the window map at the offsets of each block. From them the statements about single registers
(O16 to O22) and about the two resets (O23, O24). -/

namespace Sys2Proof.Machine

/-! ### One turn of the schedule -/

theorem step_nil {s : State} (hs : s.schedule = []) : step s = engineTurn s := by
  simp only [step, nextTurn, hs]

theorem step_cons {s : State} {u : Turn} {rest : List Turn} (hs : s.schedule = u :: rest) :
    step s = takeTurn u { s with schedule := rest } := by
  simp only [step, nextTurn, hs]

theorem engineTurn_idle {s : State} (hb : s.busy = false) : engineTurn s = .next s := by
  simp [engineTurn, hb]

/-- What a register reads as does not change with the turn. -/
theorem windowWord_schedule (s : State) (rest : List Turn) (g : WindowReg) :
    State.windowWord { s with schedule := rest } g = s.windowWord g := by
  cases g <;> rfl

/-- R56: a host read of an aligned register that is not Volatile, or while idle, returns the register. -/
theorem step_reads {s : State} {rest : List Turn} {off : Offset} {x : Word} (g : WindowReg)
    (hs : s.schedule = .hostRead off :: rest) (ha : off.toNat % 4 = 0) (hg : windowReg off.toNat = g)
    (hv : isVolatile g = false ∨ s.busy = false) (hx : s.windowWord g = some x) :
    step s = .next { s with schedule := rest, readData := some x } := by
  have hfree : (isVolatile g && s.busy) = false := Bool.and_eq_false_iff.mpr hv
  rw [step_cons hs, takeTurn, hostRead, hg, if_neg (not_not.mpr ha), if_neg (by simp [hfree]), windowWord_schedule, hx]

/-- R55: a host write of an aligned register that is not Protected, or while idle, is the register's write. -/
theorem step_writes {s : State} {rest : List Turn} {off : Offset} {v : Word} (g : WindowReg)
    (hs : s.schedule = .hostWrite off v :: rest) (ha : off.toNat % 4 = 0) (hg : windowReg off.toNat = g)
    (hp : isProtected g = false ∨ s.busy = false) :
    step s = .next (State.writeWindow { s with schedule := rest } g v) := by
  have hfree : (isProtected g && s.busy) = false := Bool.and_eq_false_iff.mpr hp
  rw [step_cons hs, takeTurn, hostWrite, hg, if_neg (not_not.mpr ha), if_neg (by simp [hfree])]

/-! ### The window map (R38) -/

/-- A 13-bit offset given as a number is that number. -/
theorem toNat_offset {n : Nat} (h : n < 0x2000) : (BitVec.ofNat 13 n).toNat = n := by
  rw [BitVec.toNat_ofNat]; exact Nat.mod_eq_of_lt h

theorem windowReg_kstate {off : Nat} (h : 0x0100 ≤ off ∧ off ≤ 0x01C4) :
    windowReg off = .kstate ((off - 0x0100) / 4) := by
  unfold windowReg
  iterate 9 rw [if_neg (by omega)]
  rw [if_pos h]

theorem windowReg_ereg (n : EReg) {w : Nat} (hw : w < 8) : windowReg (0x0200 + 32 * n.val + 4 * w) = .ereg n w := by
  have hn : (0x0200 + 32 * n.val + 4 * w - 0x0200) / 32 = n.val := by omega
  have hi : (0x0200 + 32 * n.val + 4 * w - 0x0200) % 32 / 4 = w := by omega
  unfold windowReg
  iterate 10 rw [if_neg (by omega)]
  rw [if_pos (by omega), hn, hi, Fin.ofNat_val_eq_self]

theorem windowReg_reserved {off : Nat}
    (h : (0x0024 ≤ off ∧ off ≤ 0x00FC) ∨ (0x01C8 ≤ off ∧ off ≤ 0x01FC) ∨ (0x0400 ≤ off ∧ off ≤ 0x0FFC)) :
    windowReg off = .reserved := by
  unfold windowReg
  iterate 12 rw [if_neg (by omega)]

/-! ### Element registers (R47) -/

/-- Bit `j` of the mask of one word. -/
theorem getLsbD_wordMask (j : Nat) : (0xFFFFFFFF : Elem).getLsbD j = decide (j < 32) := by
  rw [show (0xFFFFFFFF : Elem) = BitVec.ofNat 256 (2 ^ 32 - 1) from rfl, BitVec.getLsbD_ofNat,
    Nat.testBit_two_pow_sub_one]
  by_cases h : j < 32
  · simp [h, show j < 256 by omega]
  · simp [h]

/-- Replacing word `w` gives its bits the new word's and leaves every other bit. -/
theorem getLsbD_setElemWord (x : Elem) (w : Nat) (v : Word) {i : Nat} (hi : i < 256) :
    (setElemWord x w v).getLsbD i = if i / 32 = w then v.getLsbD (i % 32) else x.getLsbD i := by
  simp only [setElemWord, BitVec.getLsbD_or, BitVec.getLsbD_and, BitVec.getLsbD_not, BitVec.getLsbD_shiftLeft,
    getLsbD_wordMask, BitVec.getLsbD_setWidth, hi]
  by_cases h : i / 32 = w
  · have hge : ¬ i < 32 * w := by omega
    have hbit : i - 32 * w = i % 32 := by omega
    have hlt : i % 32 < 32 := by omega
    simp [h, hge, hbit, hlt, show i % 32 < 256 by omega]
  · by_cases hlow : i < 32 * w
    · simp [h, hlow]
    · have hhigh : ¬ i - 32 * w < 32 := by omega
      have hzero : v.getLsbD (i - 32 * w) = false := BitVec.getLsbD_of_ge _ _ (by omega)
      simp [h, hlow, hhigh, hzero]

theorem getLsbD_elemWord (x : Elem) (w : Nat) {i : Nat} (hi : i < 32) :
    (elemWord x w).getLsbD i = x.getLsbD (32 * w + i) := by
  simp [elemWord, hi]

/-- Settles O16: the word is read by `elemWord` and replaced by `setElemWord`, which are known bit by bit. -/
theorem elementWindow : Obligations.ElementWindow := by
  intro s rest n w v hw hb
  have hoff : (BitVec.ofNat 13 (0x0200 + 32 * n.val + 4 * w)).toNat = 0x0200 + 32 * n.val + 4 * w :=
    toNat_offset (by omega)
  have halign : (BitVec.ofNat 13 (0x0200 + 32 * n.val + 4 * w)).toNat % 4 = 0 := by omega
  have hreg := hoff.symm ▸ windowReg_ereg n hw
  refine ⟨fun hs => ⟨setElemWord s.e[n] w v, step_writes (.ereg n w) hs halign hreg (.inr hb), fun i hi => ?_⟩,
    fun hs => ⟨elemWord s.e[n] w, step_reads (.ereg n w) hs halign hreg (.inr hb) rfl, fun i hi => ?_⟩⟩
  · exact getLsbD_setElemWord _ _ _ hi
  · exact getLsbD_elemWord _ _ hi

/-! ### KSTATE (R26, R46) -/

/-- State byte `i` as a byte of the lane that holds it (R26). -/
theorem stateByte_eq (a : KeccakState) {i : Nat} (hi : i < 200) :
    stateByte a i = (lane a (i / 8 / 5) (i / 8 % 5)).extractLsb' (8 * (i % 8)) 8 := if_pos hi

theorem toNat_leWord (b0 b1 b2 b3 : Byte) :
    (leWord b0 b1 b2 b3).toNat = b0.toNat + 2 ^ 8 * b1.toNat + 2 ^ 16 * b2.toNat + 2 ^ 24 * b3.toNat := by
  rw [leWord, BitVec.toNat_ofNat]
  omega

/-- Four bytes of a lane in order are the lane's 32 bits from the first on. -/
theorem leWord_extractLsb' (l : Lane) (o : Nat) :
    leWord (l.extractLsb' o 8) (l.extractLsb' (o + 8) 8) (l.extractLsb' (o + 16) 8) (l.extractLsb' (o + 24) 8) =
      l.extractLsb' o 32 := by
  apply BitVec.eq_of_toNat_eq
  rw [toNat_leWord]
  simp only [BitVec.extractLsb'_toNat, Nat.shiftRight_eq_div_pow, pow_add, ← Nat.div_div_eq_div_mul]
  omega

/-- KSTATE[k] is the low or the high half of lane k div 2 (R46). -/
theorem kstateWord_eq (a : KeccakState) {k : Nat} (hk : k < 50) :
    kstateWord a k = (lane a (k / 2 / 5) (k / 2 % 5)).extractLsb' (32 * (k % 2)) 32 := by
  have hbyte : ∀ j < 4, stateByte a (4 * k + j) =
      (lane a (k / 2 / 5) (k / 2 % 5)).extractLsb' (32 * (k % 2) + 8 * j) 8 := fun j hj => by
    have hlane : (4 * k + j) / 8 = k / 2 := by omega
    have hpos : 8 * ((4 * k + j) % 8) = 32 * (k % 2) + 8 * j := by omega
    rw [stateByte_eq a (by omega), hlane, hpos]
  rw [kstateWord, show stateByte a (4 * k) = _ from hbyte 0 (by decide), hbyte 1 (by decide), hbyte 2 (by decide),
    hbyte 3 (by decide)]
  exact leWord_extractLsb' _ _

/-- Settles O17: KSTATE[k] is half a lane by `kstateWord_eq`. -/
theorem keccakStateWindow : Obligations.KeccakStateWindow := by
  intro s rest k v hk
  have hoff : (BitVec.ofNat 13 (0x0100 + 4 * k)).toNat = 0x0100 + 4 * k := toNat_offset (by omega)
  have halign : (BitVec.ofNat 13 (0x0100 + 4 * k)).toNat % 4 = 0 := by omega
  have hreg : windowReg (BitVec.ofNat 13 (0x0100 + 4 * k)).toNat = .kstate k := by
    rw [hoff, windowReg_kstate (by omega), Nat.add_sub_cancel_left, Nat.mul_div_cancel_left _ (by decide)]
  refine ⟨fun hb hs => ⟨kstateWord s.sponge.a k, ?_, toNat_leWord _ _ _ _, kstateWord_eq _ hk⟩, fun hs => ?_⟩
  · exact step_reads (.kstate k) hs halign hreg (.inr hb) rfl
  · exact step_writes (.kstate k) hs halign hreg (.inl rfl)

/-- Settles O18: the window map sends each offset to a register whose write does nothing. -/
theorem reservedOffsetsReadZeroIgnoreWrites : Obligations.ReservedOffsetsReadZeroIgnoreWrites := by
  intro s rest off v ha
  refine ⟨fun hoff hs => step_reads .reserved hs ha (windowReg_reserved hoff) (.inl rfl) rfl, fun hoff hs => ?_⟩
  rcases hoff with h | h | h | h | h | h | h | h
  · exact step_writes .reserved hs ha (windowReg_reserved (.inl h)) (.inl rfl)
  · exact step_writes .reserved hs ha (windowReg_reserved (.inr (.inl h))) (.inl rfl)
  · exact step_writes .reserved hs ha (windowReg_reserved (.inr (.inr h))) (.inl rfl)
  · exact step_writes .id hs ha (by rw [h]; rfl) (.inl rfl)
  · exact step_writes .flags hs ha (by rw [h]; rfl) (.inl rfl)
  · exact step_writes .sponge hs ha (by rw [h]; rfl) (.inl rfl)
  · exact step_writes .errInfo hs ha (by rw [h]; rfl) (.inl rfl)
  · exact step_writes (.kstate _) hs ha (windowReg_kstate h) (.inl rfl)

/-! ### The registers field by field -/

/-- Bit `i` of a word given by its value. -/
theorem getLsbD_word {n i : Nat} {b : Bool} (hi : i < 32) (h : n / 2 ^ i % 2 = b.toNat) :
    (BitVec.ofNat 32 n).getLsbD i = b := by
  rw [BitVec.getLsbD_ofNat, Nat.testBit_eq_decide_div_mod_eq, h]
  cases b <;> simp [hi]

/-- The field of `k` bits from bit `i` on of a word given by its value. -/
theorem toNat_extractLsb'_word {n i k : Nat} (hi : i + k ≤ 32) :
    ((BitVec.ofNat 32 n).extractLsb' i k).toNat = n / 2 ^ i % 2 ^ k := by
  rw [BitVec.extractLsb'_toNat, BitVec.toNat_ofNat, Nat.shiftRight_eq_div_pow, ← Nat.mod_mul_right_div_self, ← pow_add,
    Nat.mod_mod_of_dvd _ (pow_dvd_pow 2 hi), pow_add, Nat.mod_mul_right_div_self]

theorem extractLsb'_word {n i k : Nat} {x : BitVec k} (hi : i + k ≤ 32) (h : n / 2 ^ i % 2 ^ k = x.toNat) :
    (BitVec.ofNat 32 n).extractLsb' i k = x :=
  BitVec.eq_of_toNat_eq ((toNat_extractLsb'_word hi).trans h)

theorem extractLsb'_word_zero {n i k : Nat} (hi : i + k ≤ 32) (h : n / 2 ^ i % 2 ^ k = 0) :
    (BitVec.ofNat 32 n).extractLsb' i k = 0 :=
  extractLsb'_word hi (h.trans BitVec.toNat_zero.symm)

theorem errCodeValue_lt (x : Option ErrorName) : errCodeValue x < 16 := by
  cases x with
  | none => decide
  | some x => cases x <;> decide

theorem variantCode_lt (v : Variant) : variantCode v < 8 := by cases v <;> decide
theorem phaseCode_lt (p : Phase) : phaseCode p < 4 := by cases p <;> decide

/-- STATUS, field by field (R41). -/
theorem statusWord_fields (s : State) :
    s.statusWord.getLsbD 0 = s.busy ∧ s.statusWord.getLsbD 1 = s.done ∧ s.statusWord.getLsbD 2 = s.err ∧
      s.statusWord.extractLsb' 3 5 = 0 ∧ (s.statusWord.extractLsb' 8 4).toNat = errCodeValue s.errCode ∧
      s.statusWord.extractLsb' 12 20 = 0 := by
  have hbusy := s.busy.toNat_lt
  have hdone := s.done.toNat_lt
  have herr := s.err.toNat_lt
  have hcode := errCodeValue_lt s.errCode
  refine ⟨getLsbD_word (by decide) ?_, getLsbD_word (by decide) ?_, getLsbD_word (by decide) ?_,
    extractLsb'_word_zero (by decide) ?_, (toNat_extractLsb'_word (by decide)).trans ?_,
    extractLsb'_word_zero (by decide) ?_⟩ <;> omega

/-- FLAGS, bit by bit (R35). -/
theorem flagsWord_fields (f : Flags) :
    (flagsWord f).getLsbD 0 = f.z ∧ (flagsWord f).getLsbD 1 = f.eq ∧ (flagsWord f).getLsbD 2 = f.onc ∧
      (flagsWord f).getLsbD 3 = f.xlsb ∧ (flagsWord f).getLsbD 4 = f.noroot ∧ (flagsWord f).getLsbD 5 = f.notors ∧
      (flagsWord f).getLsbD 6 = f.iso ∧ (flagsWord f).extractLsb' 7 25 = 0 := by
  have hz := f.z.toNat_lt
  have heq := f.eq.toNat_lt
  have honc := f.onc.toNat_lt
  have hxlsb := f.xlsb.toNat_lt
  have hnoroot := f.noroot.toNat_lt
  have hnotors := f.notors.toNat_lt
  have hiso := f.iso.toNat_lt
  refine ⟨getLsbD_word (by decide) ?_, getLsbD_word (by decide) ?_, getLsbD_word (by decide) ?_,
    getLsbD_word (by decide) ?_, getLsbD_word (by decide) ?_, getLsbD_word (by decide) ?_, getLsbD_word (by decide) ?_,
    extractLsb'_word_zero (by decide) ?_⟩ <;> omega

/-- SPONGE, field by field (R44). -/
theorem spongeWord_fields (k : Sponge) :
    ((spongeWord k).extractLsb' 0 3).toNat = variantCode k.variant ∧ (spongeWord k).getLsbD 3 = false ∧
      ((spongeWord k).extractLsb' 4 2).toNat = phaseCode k.phase ∧ (spongeWord k).extractLsb' 6 2 = 0 ∧
      (spongeWord k).extractLsb' 8 8 = k.rate ∧ (spongeWord k).extractLsb' 16 8 = k.pos ∧
      (spongeWord k).extractLsb' 24 8 = 0 := by
  have hvariant := variantCode_lt k.variant
  have hphase := phaseCode_lt k.phase
  have hrate := k.rate.isLt
  have hpos := k.pos.isLt
  refine ⟨(toNat_extractLsb'_word (by decide)).trans ?_,
    getLsbD_word (by decide) (.trans ?_ Bool.toNat_false.symm), (toNat_extractLsb'_word (by decide)).trans ?_,
    extractLsb'_word_zero (by decide) ?_, extractLsb'_word (by decide) ?_, extractLsb'_word (by decide) ?_,
    extractLsb'_word_zero (by decide) ?_⟩ <;> omega

/-- Settles O22: a read returns the register's word, whose fields are known. -/
theorem registerReads : Obligations.RegisterReads := by
  intro s rest
  refine ⟨fun hs => step_reads .id hs rfl rfl (.inl rfl) rfl, fun hs => step_reads .cmd hs rfl rfl (.inl rfl) rfl,
    fun hs => step_reads .errInfo hs rfl rfl (.inl rfl) rfl, fun hs => ?_, fun hb hs => ?_, fun hb hs => ?_⟩
  · obtain ⟨hbusy, hdone, herr, hgap, hcode, hhigh⟩ := statusWord_fields s
    refine ⟨s.statusWord, step_reads .status hs rfl rfl (.inl rfl) rfl, hbusy, hdone, herr, hgap, hcode.trans ?_, hhigh⟩
    rcases s.errCode with _ | x
    · rfl
    · cases x <;> rfl
  · exact ⟨flagsWord s.flags, step_reads .flags hs rfl rfl (.inr hb) rfl, flagsWord_fields s.flags⟩
  · obtain ⟨hvariant, hbit, hphase, hrest⟩ := spongeWord_fields s.sponge
    refine ⟨spongeWord s.sponge, step_reads .sponge hs rfl rfl (.inr hb) rfl, hvariant.trans ?_, hbit,
      hphase.trans ?_, hrest⟩
    · cases s.sponge.variant <;> rfl
    · cases s.sponge.phase <;> rfl

/-- Settles O19, by the two write bits. -/
theorem statusWriteOneToClear : Obligations.StatusWriteOneToClear := by
  intro s rest v hs
  rw [step_writes .status hs rfl rfl (.inl rfl)]
  simp only [State.writeWindow, State.writeStatus]
  cases v.getLsbD 1 <;> cases v.getLsbD 2 <;> simp [State.clearError]

/-- CTRL, bit by bit (R40). -/
theorem getLsbD_ctrlWord (s : State) {i : Nat} (hi : i < 32) :
    s.ctrlWord.getLsbD i = ((i == 1 && s.ieDone) || (i == 2 && s.ieErr)) := by
  have hdone := s.ieDone.toNat_lt
  have herr := s.ieErr.toNat_lt
  refine getLsbD_word hi ?_
  match i with
  | 0 => simp; omega
  | 1 => simp; omega
  | 2 => simp; omega
  | i + 3 =>
    have hpow : 2 ^ 3 ≤ 2 ^ (i + 3) := Nat.pow_le_pow_right (by decide) (by omega)
    rw [Nat.div_eq_of_lt (by omega)]
    simp

/-- Settles O20, by bit 0 of the word written and the bits of CTRL. -/
theorem controlRegister : Obligations.ControlRegister := by
  refine ⟨fun s rest v hs => ?_, fun s rest hs => ?_, rfl, rfl⟩
  · have hstep := step_writes .ctrl hs rfl rfl (.inl rfl)
    exact ⟨fun hv => hstep.trans (congrArg _ (if_pos hv)),
      fun hv => hstep.trans (congrArg _ (if_neg (Bool.eq_false_iff.mp hv)))⟩
  · exact ⟨s.ctrlWord, step_reads .ctrl hs rfl rfl (.inl rfl) rfl, fun i hi => getLsbD_ctrlWord s hi⟩

/-- Settles O21: truncation keeps bits 12:0, and the read extends them by zeros. -/
theorem argumentRegisters : Obligations.ArgumentRegisters := by
  have hlow : ∀ v : Word, v.setWidth 13 = v.extractLsb' 0 13 := fun v => BitVec.setWidth_eq_extractLsb' (by decide)
  have hext : ∀ x : Offset, x.setWidth 32 = BitVec.ofNat 32 x.toNat := fun x => (BitVec.ofNat_toNat 32 x).symm
  refine fun s rest v => ⟨fun hb hs => ?_, fun hb hs => ?_, fun hs => ?_, fun hs => ?_⟩
  · exact hlow v ▸ step_writes .argAddr hs rfl rfl (.inr hb)
  · exact hlow v ▸ step_writes .argLen hs rfl rfl (.inr hb)
  · exact step_reads .argAddr hs rfl rfl (.inl rfl) (congrArg some (hext _))
  · exact step_reads .argLen hs rfl rfl (.inl rfl) (congrArg some (hext _))

/-! ### Reset and the interrupt -/

theorem lane_zeroKeccak (y x : Nat) : lane zeroKeccak y x = 0 := by
  have hrow : ∀ r : Five Lane, r = ⟨0, 0, 0, 0, 0⟩ → r.get x = 0 := fun r hr => by
    subst hr; unfold Five.get; split <;> rfl
  refine hrow _ ?_
  unfold Five.get
  split <;> rfl

/-- Both resets are a hard reset, apart from the scratchpad, which only the soft reset keeps (R172, R173). -/
theorem step_resets {s : State} {rest : List Turn} {v : Word}
    (h : s.schedule = .hardReset :: rest ∨ (s.schedule = .hostWrite 0x0004 v :: rest ∧ v.getLsbD 0 = true)) :
    ∃ m, step s = .next { State.hardReset { s with schedule := rest } with scratch := m } ∧
      (s.schedule = .hardReset :: rest → m = []) ∧ (s.schedule = .hostWrite 0x0004 v :: rest → m = s.scratch) := by
  rcases h with hs | ⟨hs, hv⟩
  · exact ⟨[], step_cons hs, fun _ => rfl, fun hw => by simp [hs] at hw⟩
  · have hstep := (step_writes .ctrl hs rfl rfl (.inl rfl)).trans (congrArg _ (if_pos hv))
    exact ⟨s.scratch, hstep, fun hh => by simp [hs] at hh, fun _ => rfl⟩

/-- Settles O23: after `step_resets` every field but the scratchpad is read off `State.reset`. -/
theorem resetValues : Obligations.ResetValues := by
  intro s rest v h
  obtain ⟨m, hstep, hhard, hsoft⟩ := step_resets h
  refine ⟨_, hstep, fun y _ x _ => lane_zeroKeccak y x, rfl, rfl, rfl, rfl, fun n => Vector.getElem_replicate _, rfl, rfl,
    rfl, rfl, rfl, rfl, rfl, rfl, rfl, rfl, rfl, rfl, fun hs a => ?_, hsoft⟩
  rw [hhard hs]
  rfl

/-- Settles O24: irq by its definition. -/
theorem interruptIsLevel : Obligations.InterruptIsLevel := by
  refine ⟨fun s => ?_, rfl⟩
  simp [State.irq]

end Sys2Proof.Machine
end

section
/-! The command latch while idle (O34). -/

namespace Sys2Proof.Machine

/-- The state with another command latch (R36). -/
def State.withLatch (s : State) (c : Word) (a l : Offset) : State := { s with cmdL := c, addrL := a, lenL := l }

/-- Outcomes that differ at most in the latch, and that only where no command is in flight. -/
inductive SameButLatch : Host.Outcome State Fault Refusal → Host.Outcome State Fault Refusal → Prop where
  | next {t u : State} (hbusy : t.busy = true → u = t) (h : u = t.withLatch u.cmdL u.addrL u.lenL) :
      SameButLatch (.next t) (.next u)
  | fault (f : Fault) : SameButLatch (.fault f) (.fault f)

/-- Another latch in an idle state. -/
theorem sameButLatch_idle {t u : State} {c : Word} {a l : Offset} (hb : t.busy = false) (hu : u = t.withLatch c a l) :
    SameButLatch (.next t) (.next u) :=
  .next (fun h => by simp [hb] at h) (by rw [hu]; rfl)

theorem sameButLatch_refl (t : State) : SameButLatch (.next t) (.next t) := .next (fun _ => rfl) rfl

/-- No window register shows the latch (R36, R38). -/
theorem windowWord_withLatch (s : State) (c : Word) (a l : Offset) (g : WindowReg) :
    (s.withLatch c a l).windowWord g = s.windowWord g := by
  cases g <;> rfl

theorem writeStatus_withLatch (s : State) (c : Word) (a l : Offset) (v : Word) :
    (s.withLatch c a l).writeStatus v = (s.writeStatus v).withLatch c a l := by
  unfold State.writeStatus
  cases v.getLsbD 1 <;> cases v.getLsbD 2 <;> rfl

theorem writeStatus_busy (s : State) (v : Word) : (s.writeStatus v).busy = s.busy := by
  unfold State.writeStatus
  cases v.getLsbD 1 <;> cases v.getLsbD 2 <;> rfl

section
variable {s : State} (hb : s.busy = false) (c : Word) (a l : Offset)
include hb

theorem hostRead_sameButLatch (off : Offset) :
    SameButLatch (hostRead off s) (hostRead off (s.withLatch c a l)) := by
  have hb' : (s.withLatch c a l).busy = false := hb
  simp only [hostRead, hb, hb', Bool.and_false, Bool.false_eq_true, if_false, windowWord_withLatch]
  split
  · exact .fault _
  · split
    · exact .fault _
    · exact sameButLatch_idle rfl rfl

/-- A write while idle: a reset and an accepted command set the whole latch, every other write leaves it. -/
theorem writeWindow_sameButLatch (g : WindowReg) (v : Word) :
    SameButLatch (.next (s.writeWindow g v)) (.next ((s.withLatch c a l).writeWindow g v)) := by
  cases g with
  | ctrl =>
    simp only [State.writeWindow, State.writeCtrl]
    split
    · exact sameButLatch_refl s.softReset
    · exact sameButLatch_idle hb rfl
  | status =>
    simp only [State.writeWindow, writeStatus_withLatch]
    exact sameButLatch_idle ((writeStatus_busy s v).trans hb) rfl
  | cmd =>
    show SameButLatch (.next (if s.err then s else s.acceptCommand v))
      (.next (if s.err then s.withLatch c a l else s.acceptCommand v))
    split
    · exact sameButLatch_idle hb rfl
    · exact sameButLatch_refl _
  | argAddr => exact sameButLatch_idle hb rfl
  | argLen => exact sameButLatch_idle hb rfl
  | ereg n w => exact sameButLatch_idle hb rfl
  | scratch b => exact sameButLatch_idle hb rfl
  | id | flags | sponge | errInfo | kstate | reserved => exact sameButLatch_idle hb rfl

theorem hostWrite_sameButLatch (off : Offset) (v : Word) :
    SameButLatch (hostWrite off v s) (hostWrite off v (s.withLatch c a l)) := by
  have hb' : (s.withLatch c a l).busy = false := hb
  simp only [hostWrite, hb, hb', Bool.and_false, Bool.false_eq_true, if_false]
  split
  · exact .fault _
  · exact writeWindow_sameButLatch hb c a l _ v

theorem engineTurn_sameButLatch : SameButLatch (engineTurn s) (engineTurn (s.withLatch c a l)) := by
  rw [engineTurn_idle hb, engineTurn_idle (s := s.withLatch c a l) hb]
  exact sameButLatch_idle hb rfl

theorem takeTurn_sameButLatch (u : Turn) : SameButLatch (takeTurn u s) (takeTurn u (s.withLatch c a l)) := by
  cases u with
  | hostRead off => exact hostRead_sameButLatch hb c a l off
  | hostWrite off v => exact hostWrite_sameButLatch hb c a l off v
  | engine => exact engineTurn_sameButLatch hb c a l
  | hardReset => exact sameButLatch_refl s.hardReset

theorem step_sameButLatch : SameButLatch (step s) (step (s.withLatch c a l)) := by
  cases hs : s.schedule with
  | nil =>
    rw [step_nil hs, step_nil (s := s.withLatch c a l) hs]
    exact engineTurn_sameButLatch hb c a l
  | cons u rest =>
    rw [step_cons hs, step_cons (s := s.withLatch c a l) hs]
    exact takeTurn_sameButLatch (s := { s with schedule := rest }) hb c a l u

end

/-- Settles O34: `step_sameButLatch`, read off its two constructors. -/
theorem idleLatchUnobservable : Obligations.IdleLatchUnobservable := by
  intro s c a l hb
  have hstep := step_sameButLatch hb c a l
  unfold State.withLatch at hstep
  generalize step s = o, step { s with cmdL := c, addrL := a, lenL := l } = o' at hstep
  cases hstep with
  | next hbusy h => exact ⟨hbusy, h⟩
  | fault f => rfl

end Sys2Proof.Machine
end

section
/-! The Keccak state byte by byte (O35). -/

namespace Sys2Proof.Machine

/-- A byte moved to place `p` of a lane, seen from place `q`: itself there, and 0 elsewhere. -/
theorem extractLsb'_byte_shift (b : Byte) {p q : Nat} (hq : q < 8) :
    (b.setWidth 64 <<< (8 * p)).extractLsb' (8 * q) 8 = if q = p then b else 0 := by
  apply BitVec.eq_of_getLsbD_eq
  intro i hi
  simp only [BitVec.getLsbD_extractLsb', BitVec.getLsbD_shiftLeft, BitVec.getLsbD_setWidth, hi]
  by_cases h : q = p
  · subst h
    have hlt : 8 * q + i < 64 := by omega
    simp [hlt, show i < 64 by omega]
  · by_cases hlow : 8 * q + i < 8 * p
    · simp [h, hlow]
    · have hzero : b.getLsbD (8 * q + i - 8 * p) = false := BitVec.getLsbD_of_ge _ _ (by omega)
      simp [h, hzero]

/-- XorByte(i, b) changes state byte `i` and no other (R26). -/
theorem stateByte_xorByte (a : KeccakState) {i j : Nat} (b : Byte) (hi : i < 200) (hj : j < 200) :
    stateByte (xorByte a i b) j = if j = i then stateByte a j ^^^ b else stateByte a j := by
  rw [stateByte_eq _ hj, lane_xorByte a i _ _ b hi (by omega) (by omega), stateByte_eq _ hj]
  by_cases hlane : j / 8 = i / 8
  · rw [if_pos (by rw [hlane]; exact ⟨rfl, rfl⟩), BitVec.extractLsb'_xor, extractLsb'_byte_shift b (by omega)]
    by_cases hbyte : j % 8 = i % 8
    · rw [if_pos hbyte, if_pos (by omega)]
    · rw [if_neg hbyte, if_neg (by omega)]
      exact BitVec.xor_zero
  · rw [if_neg (by omega), if_neg (by omega)]

/-- Settles O35: one byte of the lane, the lane rule `lane_xorByte`, and the byte rule `stateByte_xorByte`. -/
theorem stateByteView : Obligations.StateByteView := by
  intro a i b hi
  refine ⟨?_, fun y hy x hx => ?_, fun j hj => stateByte_xorByte a b hi hj⟩
  · rw [stateByte_eq a hi, BitVec.extractLsb'_toNat, Nat.shiftRight_eq_div_pow]
  · have hshift : b.setWidth 64 <<< (8 * (i % 8)) = BitVec.ofNat 64 (b.toNat * 2 ^ (8 * (i % 8))) := by
      apply BitVec.eq_of_toNat_eq
      rw [BitVec.toNat_shiftLeft, BitVec.toNat_setWidth, BitVec.toNat_ofNat, Nat.shiftLeft_eq,
        Nat.mod_eq_of_lt (by omega : b.toNat < 2 ^ 64)]
    rw [lane_xorByte a i y x b hi hy hx, hshift]
    simp only [and_comm]

end Sys2Proof.Machine
end

section
/-! Host transactions on the register window, and that a command in flight completes (20_memory.md; O8 to O15). -/

namespace Sys2Proof.Machine

/-! ### The window map at the Protected, the Volatile and the scratchpad offsets (R38) -/

theorem windowReg_scratch {off : Nat} (h : 0x1000 ≤ off ∧ off ≤ 0x1FFC) : windowReg off = .scratch (off - 0x1000) := by
  unfold windowReg
  iterate 11 rw [if_neg (by omega)]
  rw [if_pos h]

theorem exists_windowReg_eq_ereg {off : Nat} (h : 0x0200 ≤ off ∧ off ≤ 0x03FC) : ∃ n w, windowReg off = .ereg n w := by
  unfold windowReg
  iterate 10 rw [if_neg (by omega)]
  rw [if_pos h]
  exact ⟨_, _, rfl⟩

/-- The Protected offsets of R55. -/
theorem isProtected_windowReg {off : Nat}
    (h : off = 0x000C ∨ off = 0x0010 ∨ off = 0x0014 ∨ (0x0200 ≤ off ∧ off ≤ 0x03FC) ∨ (0x1000 ≤ off ∧ off ≤ 0x1FFC)) :
    isProtected (windowReg off) = true := by
  rcases h with rfl | rfl | rfl | h | h
  · rfl
  · rfl
  · rfl
  · obtain ⟨n, w, hg⟩ := exists_windowReg_eq_ereg h
    rw [hg, isProtected]
  · rw [windowReg_scratch h, isProtected]

/-- The Volatile offsets of R56. -/
theorem isVolatile_windowReg {off : Nat}
    (h : off = 0x0018 ∨ off = 0x001C ∨ (0x0100 ≤ off ∧ off ≤ 0x01C4) ∨ (0x0200 ≤ off ∧ off ≤ 0x03FC) ∨
      (0x1000 ≤ off ∧ off ≤ 0x1FFC)) : isVolatile (windowReg off) = true := by
  rcases h with rfl | rfl | h | h | h
  · rfl
  · rfl
  · rw [windowReg_kstate h, isVolatile]
  · obtain ⟨n, w, hg⟩ := exists_windowReg_eq_ereg h
    rw [hg, isVolatile]
  · rw [windowReg_scratch h, isVolatile]

/-- An aligned offset of 13 bits ends at 0x1FFC. -/
theorem offset_le_of_aligned {off : Offset} (ha : off.toNat % 4 = 0) : off.toNat ≤ 0x1FFC := by
  have hlt := off.isLt
  omega

/-! ### Host transactions that are refused, free or faulting -/

section
variable {s : State} {rest : List Turn} {off : Offset} {v : Word}

/-- R55, R178: a write to a Protected register while BUSY only records a BusyViolation. -/
theorem step_write_refused (hs : s.schedule = .hostWrite off v :: rest) (ha : off.toNat % 4 = 0)
    (hp : isProtected (windowReg off.toNat) = true) (hb : s.busy = true) :
    step s = .next (State.recordError .busyViolation (off.setWidth 32) { s with schedule := rest }) := by
  rw [step_cons hs, takeTurn, hostWrite, if_neg (not_not.mpr ha), if_pos (by simp [hp, hb])]

/-- R56: a read of a Volatile register while BUSY draws a free value. -/
theorem step_read_free (hs : s.schedule = .hostRead off :: rest) (ha : off.toNat % 4 = 0)
    (hv : isVolatile (windowReg off.toNat) = true) (hb : s.busy = true) :
    step s = .next { s with schedule := rest, readData := some (Config.freeRead s.draws), draws := s.draws + 1 } := by
  rw [step_cons hs, takeTurn, hostRead, if_neg (not_not.mpr ha), if_pos (by simp [hv, hb])]

/-- R53: an idle read of a register without a value is an unwritten read. -/
theorem step_read_unwritten (hs : s.schedule = .hostRead off :: rest) (ha : off.toNat % 4 = 0) (hb : s.busy = false)
    (hx : s.windowWord (windowReg off.toNat) = none) : step s = .fault .unwrittenRead := by
  rw [step_cons hs, takeTurn, hostRead, if_neg (not_not.mpr ha), if_neg (by simp [hb]), windowWord_schedule, hx]

theorem step_read_misaligned (hs : s.schedule = .hostRead off :: rest) (ha : off.toNat % 4 ≠ 0) :
    step s = .fault .misaligned := by
  rw [step_cons hs, takeTurn, hostRead, if_pos ha]

theorem step_write_misaligned (hs : s.schedule = .hostWrite off v :: rest) (ha : off.toNat % 4 ≠ 0) :
    step s = .fault .misaligned := by
  rw [step_cons hs, takeTurn, hostWrite, if_pos ha]

end

/-- Settles O11: `step_write_refused`, and what `recordError` does for each value of ERR. -/
theorem protectedWritesRefusedWhileBusy : Obligations.ProtectedWritesRefusedWhileBusy := by
  intro s rest off v hb hs ha hoff
  rw [step_write_refused hs ha (isProtected_windowReg hoff) hb]
  exact ⟨fun he => congrArg _ (recordError_of_not_err (s := { s with schedule := rest }) he _ _),
    fun he => congrArg _ (recordError_of_err (s := { s with schedule := rest }) he _ _)⟩

/-- Settles O14: the test for Volatile comes before the register's word is looked at. -/
theorem volatileReadsWhileBusyAreFree : Obligations.VolatileReadsWhileBusyAreFree := by
  intro s rest off hb hs ha hoff
  refine step_read_free hs ha (isVolatile_windowReg ?_) hb
  have hle := offset_le_of_aligned ha
  omega

/-- Settles O13: `hostRead_next` of the turn taken. -/
theorem hostReadsKeepSpecState : Obligations.HostReadsKeepSpecState := by
  intro s t rest off hs ht
  rw [step_cons hs] at ht
  exact hostRead_next ht

/-! ### The command register -/

/-- Settles O10: the write of CMD while idle, by ERR, and the refusal of a Protected write while busy. -/
theorem commandWriteOutcomes : Obligations.CommandWriteOutcomes := by
  intro s rest w hs
  have hidle : s.busy = false → step s = .next (State.writeWindow { s with schedule := rest } .cmd w) :=
    fun hb => step_writes .cmd hs rfl rfl (.inr hb)
  have hbusy := fun hb => protectedWritesRefusedWhileBusy s rest 0x000C w hb hs rfl (.inl rfl)
  refine ⟨fun hb he => ?_, fun hb he => ?_, fun hb he => (hbusy hb).1 he, fun hb he => (hbusy hb).2 he⟩
  · exact (hidle hb).trans (congrArg _ (if_neg (Bool.eq_false_iff.mp he)))
  · exact (hidle hb).trans (congrArg _ (if_pos he))

/-- R83: the engine's turn runs the latched command and completes it. -/
theorem engineTurn_of_decode {s : State} {i : Instr} (hb : s.busy = true) (hd : decode s.cmdL = .ok i) :
    engineTurn s = completed (exec i s) := by
  rcases engineTurn_cases (s := s) rfl with ⟨hidle, -⟩ | ⟨-, x, hx, -⟩ | ⟨-, j, hj, ho⟩
  · simp [hb] at hidle
  · simp [hd] at hx
  · obtain rfl : i = j := Except.ok.inj (hd.symm.trans hj)
    exact ho

/-- Settles O8: the accepted CMD write of O10, and then `engineTurn_of_decode`. -/
theorem commandWriteThenEngineTurn : Obligations.CommandWriteThenEngineTurn := by
  intro s rest w i hb he hd hs
  obtain ⟨haccept, -⟩ := commandWriteOutcomes s (.engine :: rest) w hs
  refine ⟨_, haccept hb he, ?_⟩
  rw [step_cons rfl]
  exact engineTurn_of_decode rfl hd

/-! ### The scratchpad window (R53, R58) -/

/-- A word with an unwritten byte has no value (R53). -/
theorem scratchWord_eq_none {m : Memory} {a k : Nat} (hk : k < 4) (h : readByte m (a + k) = none) :
    scratchWord m a = none := by
  unfold scratchWord
  split
  · next h0 h1 h2 h3 =>
    exfalso
    match k with
    | 0 => cases h.symm.trans h0
    | 1 => cases h.symm.trans h1
    | 2 => cases h.symm.trans h2
    | 3 => cases h.symm.trans h3
  · rfl

/-- Byte `j` of a word is its bits 8j+7 to 8j (R58). -/
theorem getElem?_wordBytes (v : Word) {j : Nat} (hj : j < 4) : (wordBytes v)[j]? = some (v.extractLsb' (8 * j) 8) := by
  match j with
  | 0 | 1 | 2 | 3 => rfl

/-- A word is made of its four bytes (R58). -/
theorem leWord_wordBytes (v : Word) :
    leWord (v.extractLsb' 0 8) (v.extractLsb' 8 8) (v.extractLsb' 16 8) (v.extractLsb' 24 8) = v := by
  have hlt := v.isLt
  apply BitVec.eq_of_toNat_eq
  simp only [toNat_leWord, BitVec.extractLsb'_toNat, Nat.shiftRight_eq_div_pow]
  omega

theorem scratchWord_eq_some {m : Memory} {a : Nat} {v : Word}
    (h : ∀ j < 4, readByte m (a + j) = some (v.extractLsb' (8 * j) 8)) : scratchWord m a = some v := by
  have h0 : readByte m a = some (v.extractLsb' 0 8) := h 0 (by decide)
  rw [scratchWord, h0, h 1 (by decide), h 2 (by decide), h 3 (by decide)]
  exact congrArg some (leWord_wordBytes v)

/-- Writing a word at byte 4k decides the bytes whose address is 4k to 4k+3 (R58). -/
theorem readByte_writeWord (m : Memory) (k : Nat) (v : Word) (a : Nat) :
    readByte (writeBytes m (4 * k) (wordBytes v)) a =
      if a / 4 = k then some (v.extractLsb' (8 * (a % 4)) 8) else readByte m a := by
  rw [readByte_writeBytes, length_wordBytes]
  by_cases h : a / 4 = k
  · rw [if_pos (by omega), if_pos h, show a - 4 * k = a % 4 by omega, getElem?_wordBytes v (by omega)]
  · rw [if_neg (by omega), if_neg h]

/-- Settles O15: the window map, the bytes a word's write decides, and the word its four bytes make. -/
theorem scratchWindowIsLittleEndian : Obligations.ScratchWindowIsLittleEndian := by
  intro s rest k v hk hb
  have hoff : (BitVec.ofNat 13 (0x1000 + 4 * k)).toNat = 0x1000 + 4 * k := toNat_offset (by omega)
  have halign : (BitVec.ofNat 13 (0x1000 + 4 * k)).toNat % 4 = 0 := by omega
  have hreg : windowReg (BitVec.ofNat 13 (0x1000 + 4 * k)).toNat = .scratch (4 * k) := by
    rw [hoff, windowReg_scratch (by omega), Nat.add_sub_cancel_left]
  refine ⟨fun hs => ⟨_, step_writes (.scratch (4 * k)) hs halign hreg (.inr hb), readByte_writeWord s.scratch k v⟩,
    fun hs hbytes => ?_⟩
  exact step_reads (.scratch (4 * k)) hs halign hreg (.inr hb) (scratchWord_eq_some hbytes)

/-! ### The model faults (R53, R54) -/

/-- KABS past its checks with an unwritten byte in its range faults (R53, R106). -/
theorem exec_kabs_unwritten {s : State} (hp : s.sponge.phase = .absorbing) (hr : outOfRange s.addr s.len = false)
    (hn : readBytes s.scratch s.addr s.len = none) : exec .kabs s = .fault .unwrittenRead := by
  show execKabs s = _
  rw [execKabs, if_neg (not_not.mpr hp), if_neg (Bool.eq_false_iff.mp hr), hn, commit_fault]

/-- LDBE past its checks with an unwritten byte in its range faults (R53, R130). -/
theorem exec_ldbe_unwritten {s : State} (m : Modulus) (rd : EReg) (hl : s.len ≤ 64)
    (hr : outOfRange s.addr s.len = false) (hn : readBytes s.scratch s.addr s.len = none) :
    exec (.ldbe m rd) s = .fault .unwrittenRead := by
  show execLdbe m rd s = _
  rw [execLdbe, if_neg (Nat.not_lt.mpr hl), if_neg (Bool.eq_false_iff.mp hr), hn, commit_fault]

/-- Settles O12: misaligned transactions, the idle read of a scratchpad word, and the two commands that read memory. -/
theorem modelFaults : Obligations.ModelFaults := by
  refine ⟨fun s rest off v ha => ⟨fun hs => step_read_misaligned hs ha, fun hs => step_write_misaligned hs ha⟩,
    fun s rest off k hb ha hoff hk hn hs => ?_, fun s k hr hk hn => ?_⟩
  · refine step_read_unwritten hs ha hb ?_
    rw [windowReg_scratch ⟨hoff, offset_le_of_aligned ha⟩]
    exact scratchWord_eq_none hk hn
  · have hrange : outOfRange s.addr s.len = false := outOfRange_eq_false_iff.mpr hr
    have hnone : readBytes s.scratch s.addr s.len = none := readBytes_eq_none _ _ _ k hk hn
    exact ⟨fun hp => exec_kabs_unwritten hp hrange hnone, fun m rd hl => exec_ldbe_unwritten m rd hl hrange hnone⟩

/-! ### Every command completes (R65, R182) -/

/-- No command moves the schedule. -/
theorem exec_schedule {i : Instr} {s t : State} (h : exec i s = .next t) : t.schedule = s.schedule := by
  rcases exec_next h with hc | ⟨x, -, rfl⟩
  · rw [← hc.rest]
  · exact recordError_schedule s x s.cmdL

/-- After the engine's turn no command is in flight (R83). -/
theorem engineTurn_next {s t : State} (h : engineTurn s = .next t) : t.busy = false ∧ t.schedule = s.schedule := by
  rcases engineTurn_cases h with ⟨hb, ho⟩ | ⟨-, x, -, ho⟩ | ⟨-, i, -, ho⟩
  · cases ho; exact ⟨hb, rfl⟩
  · cases ho; exact ⟨rfl, recordError_schedule s _ _⟩
  · cases hi : exec i s with
    | next u =>
      rw [hi] at ho
      cases ho
      exact ⟨rfl, exec_schedule (t := u) hi⟩
    | fault f => rw [hi] at ho; cases ho
    | refused r => rw [hi] at ho; cases ho

theorem writeStatus_schedule (s : State) (v : Word) : (s.writeStatus v).schedule = s.schedule := by
  unfold State.writeStatus
  cases v.getLsbD 1 <;> cases v.getLsbD 2 <;> rfl

/-- No register write moves the schedule. -/
theorem writeWindow_schedule (s : State) (g : WindowReg) (v : Word) : (s.writeWindow g v).schedule = s.schedule := by
  cases g with
  | ctrl =>
    show (s.writeCtrl v).schedule = s.schedule
    unfold State.writeCtrl
    split <;> rfl
  | status => exact writeStatus_schedule s v
  | cmd =>
    show (if s.err then s else s.acceptCommand v).schedule = s.schedule
    split <;> rfl
  | id | argAddr | argLen | flags | sponge | errInfo | kstate | ereg | scratch | reserved => rfl

theorem takeTurn_schedule {u : Turn} {s t : State} (h : takeTurn u s = .next t) : t.schedule = s.schedule := by
  cases u with
  | hostRead off => rw [hostRead_next h]
  | hostWrite off v =>
    obtain ⟨-, ⟨-, -, rfl⟩ | ⟨-, rfl⟩⟩ := hostWrite_next h
    · exact recordError_schedule s _ _
    · exact writeWindow_schedule s _ v
  | engine => exact (engineTurn_next h).2
  | hardReset => cases h; rfl

/-- One step of a run, and the rest of it. -/
theorem run_succ_next {M : Host.Core} {k : Nat} {s t : M.State} (h : M.run (k + 1) s = .next t) :
    ∃ u, M.step s = .next u ∧ M.run k u = .next t := by
  rw [Host.Core.run] at h
  split at h
  · next u hu => exact ⟨u, hu, h⟩
  · cases h
  · cases h

/-- Each step takes one turn off the schedule, so that the step after the last of `l` is the engine's. -/
theorem run_past_schedule_idle (l : List Turn) {s t : State} (hs : s.schedule = l)
    (h : Sys2Proof.core.run (l.length + 1) s = .next t) : t.busy = false := by
  induction l generalizing s with
  | nil =>
    obtain ⟨u, hu, hrun⟩ := run_succ_next h
    cases hrun
    exact (engineTurn_next ((step_nil hs).symm.trans hu)).1
  | cons turn rest ih =>
    obtain ⟨u, hu, hrun⟩ := run_succ_next h
    exact ih (takeTurn_schedule ((step_cons hs).symm.trans hu)) hrun

/-- Settles O9: `run_past_schedule_idle` for the whole schedule. -/
theorem everyCommandCompletes : Obligations.EveryCommandCompletes :=
  fun s _ h => run_past_schedule_idle s.schedule rfl h

end Sys2Proof.Machine
end

section
/-! The encoding (30_encoding.md; O1 to O5) and the turn of a word that is no command (O7). Each row of the opcode map
builds, from a word, the command whose own word keeps the bits outside the row's mask and has the row's pattern under it
(`encode_build`), and each command is built back from its word by a row (`exists_row_build_encode`). The decoder as an
equivalence (`decode_ok_iff`) makes the two directions of the round trip out of these. -/

namespace Sys2Proof.Machine

open Sys2Proof.Laws

/-! ### The fields of a word (R70, R72, R73) -/

section
variable (w : Word)

theorem val_eregField (lo : Nat) : (eregField w lo).val = (w.extractLsb' lo 4).toNat := rfl

/-- R73: a point field is the low three bits of a 4-bit field. -/
theorem val_pregField (lo : Nat) : (pregField w lo).val = (w.extractLsb' lo 4 &&& 7).toNat := by
  have hlow : (pregField w lo).val = (w.extractLsb' lo 3).toNat := rfl
  have hseven : (7 : BitVec 4).toNat = 2 ^ 3 - 1 := rfl
  rw [hlow, BitVec.toNat_and, hseven, Nat.and_two_pow_sub_one_eq_mod, BitVec.extractLsb'_toNat,
    BitVec.extractLsb'_toNat, Nat.mod_mod_of_dvd _ (by decide)]

theorem toNat_getLsbD (i : Nat) : (w.getLsbD i).toNat = (w.extractLsb' i 1).toNat := by
  rw [BitVec.getLsbD, Nat.toNat_testBit, BitVec.extractLsb'_toNat, Nat.shiftRight_eq_div_pow, pow_one]

theorem toNat_lsbField : (lsbField w).toNat = (w.extractLsb' 21 1).toNat := toNat_getLsbD w 21

theorem modulusBit_modulusField : modulusBit (modulusField w) = (w.extractLsb' 20 1).toNat := by
  rw [← toNat_getLsbD, modulusField]
  cases w.getLsbD 20 <;> rfl

end

theorem modulusBit_inj {x y : Modulus} : modulusBit x = modulusBit y ↔ x = y := by
  cases x <;> cases y <;> decide

/-! What the decoder reads in each field of a word given by its value. -/

section
variable {n lo : Nat}

theorem eregField_ofNat_eq_iff (hlo : lo + 4 ≤ 32) {e : EReg} :
    eregField (BitVec.ofNat 32 n) lo = e ↔ n / 2 ^ lo % 2 ^ 4 = e.val := by
  rw [Fin.ext_iff, val_eregField, toNat_extractLsb'_word hlo]

theorem pregField_ofNat_eq_iff (hlo : lo + 3 ≤ 32) {p : PReg} :
    pregField (BitVec.ofNat 32 n) lo = p ↔ n / 2 ^ lo % 2 ^ 3 = p.val := by
  rw [Fin.ext_iff, pregField, BitVec.val_toFin, toNat_extractLsb'_word hlo]

theorem modulusField_ofNat_eq_iff {m : Modulus} :
    modulusField (BitVec.ofNat 32 n) = m ↔ n / 2 ^ 20 % 2 ^ 1 = modulusBit m := by
  rw [← modulusBit_inj, modulusBit_modulusField, toNat_extractLsb'_word (by decide)]

theorem lsbField_ofNat_eq_iff {b : Bool} : lsbField (BitVec.ofNat 32 n) = b ↔ n / 2 ^ 21 % 2 ^ 1 = b.toNat := by
  have hinj : Function.Injective Bool.toNat := Function.LeftInverse.injective Bool.ofNat_toNat
  rw [← hinj.eq_iff, toNat_lsbField, toNat_extractLsb'_word (by decide)]

theorem variantField_ofNat_eq_iff {v : BitVec 3} :
    variantField (BitVec.ofNat 32 n) = v ↔ n / 2 ^ 24 % 2 ^ 3 = v.toNat := by
  rw [← BitVec.toNat_inj, variantField, toNat_extractLsb'_word (by decide)]

end

/-- R70, R77: a word with 0 in its reserved bits 23:22 and 31:27 is the word of its own fields. -/
theorem encodeFields_eq {w : Word} {op rd rs1 rs2 m l v : Nat} (hop : (w.extractLsb' 0 8).toNat = op)
    (hrd : (w.extractLsb' 8 4).toNat = rd) (hrs1 : (w.extractLsb' 12 4).toNat = rs1)
    (hrs2 : (w.extractLsb' 16 4).toNat = rs2) (hm : (w.extractLsb' 20 1).toNat = m)
    (hl : (w.extractLsb' 21 1).toNat = l) (hv : (w.extractLsb' 24 3).toNat = v)
    (hlow : (w.extractLsb' 22 2).toNat = 0) (hhigh : (w.extractLsb' 27 5).toNat = 0) :
    encodeFields op rd rs1 rs2 m l v = w := by
  apply BitVec.eq_of_toNat_eq
  have hw := w.isLt
  simp only [BitVec.extractLsb'_toNat, Nat.shiftRight_eq_div_pow] at hop hrd hrs1 hrs2 hm hl hv hlow hhigh
  rw [encodeFields, BitVec.toNat_ofNat]
  omega

/-! ### The rows of the opcode map (R76) -/

theorem opTable_ops_nodup : (opTable.map OpRow.op).Nodup := by decide

/-- A row's mask covers the whole opcode, and its pattern has the row's opcode there. -/
theorem row_opcode_bits : ∀ row ∈ opTable,
    row.mask.extractLsb' 0 8 = BitVec.allOnes 8 ∧ row.pattern.extractLsb' 0 8 = row.op := by decide

theorem row_pattern_and_mask : ∀ row ∈ opTable, row.pattern &&& row.mask = row.pattern := by decide

/-- A word that passes a row's mask check has the row's opcode. -/
theorem op_eq_of_match {row : OpRow} {w : Word} (hrow : row ∈ opTable) (hw : w &&& row.mask = row.pattern) :
    row.op = w.extractLsb' 0 8 := by
  obtain ⟨hmask, hop⟩ := row_opcode_bits row hrow
  rw [← hop, ← hw, BitVec.extractLsb'_and, hmask, BitVec.and_allOnes]

theorem find?_op_eq_some {row : OpRow} {b : BitVec 8} :
    opTable.find? (fun r => r.op == b) = some row ↔ row ∈ opTable ∧ row.op = b := by
  refine ⟨fun h => ⟨List.mem_of_find?_eq_some h, by simpa using List.find?_some h⟩, ?_⟩
  rintro ⟨hrow, rfl⟩
  have hsome : (opTable.find? (fun r => r.op == row.op)).isSome := List.find?_isSome.mpr ⟨row, hrow, BEq.rfl⟩
  obtain ⟨r, hr⟩ := Option.isSome_iff_exists.mp hsome
  have hop : r.op = row.op := by simpa using List.find?_some hr
  rw [hr, List.inj_on_of_nodup_map opTable_ops_nodup (List.mem_of_find?_eq_some hr) hrow hop]

/-! The masks of a whole field, as `simp` writes them. -/

theorem and_fifteen (x : BitVec 4) : x &&& 15#4 = x := BitVec.and_allOnes
theorem and_seven (x : BitVec 3) : x &&& 7#3 = x := BitVec.and_allOnes

/-- The word of what a row builds keeps the bits outside the row's mask: field by field, these are the bits that the
row's command reads, and the pattern is its opcode. -/
theorem encode_build {row : OpRow} (h : row ∈ opTable) (w : Word) :
    encode (row.build w) = w &&& ~~~row.mask ||| row.pattern := by
  fin_cases h
  all_goals
    apply encodeFields_eq <;>
      simp [BitVec.extractLsb'_or, BitVec.extractLsb'_and, val_eregField, val_pregField, modulusBit_modulusField,
        toNat_lsbField, variantField, and_fifteen, and_seven]

/-- The row of a command's opcode builds the command from its word, by the kinds of field that the command has. -/
theorem exists_row_of_instr (i : Instr) :
    ∃ row, opTable.find? (fun row => row.op == BitVec.ofNat 8 (opcodeOf i)) = some row ∧ row.build (encode i) = i := by
  cases i with
  | nop | kabs | kfin | ksqz | kdig | kperm | krel => exact ⟨_, rfl, rfl⟩
  | kinit v =>
    refine ⟨_, rfl, ?_⟩
    simp [encode, encodeFields, variantField_ofNat_eq_iff]
    omega
  | fadd m | fsub m | fmul m | fpow m | fneg m | finv m | fred m | ldbe m =>
    have hm := modulusBit_lt m
    refine ⟨_, rfl, ?_⟩
    simp [encode, encodeFields, eregField_ofNat_eq_iff, modulusField_ofNat_eq_iff]
    omega
  | fsqrt _ _ lsb | pdec _ _ lsb =>
    have hlsb := lsb.toNat_lt
    refine ⟨_, rfl, ?_⟩
    simp [encode, encodeFields, eregField_ofNat_eq_iff, pregField_ofNat_eq_iff, lsbField_ofNat_eq_iff]
    omega
  | fmov | stbe | pneut | pgen | padd | pneg | pmul | peq | ponc | pcomp =>
    refine ⟨_, rfl, ?_⟩
    simp [encode, encodeFields, eregField_ofNat_eq_iff, pregField_ofNat_eq_iff]
    omega

theorem exists_row_build_encode (i : Instr) : ∃ row ∈ opTable, row.build (encode i) = i := by
  obtain ⟨row, hfind, hbuild⟩ := exists_row_of_instr i
  exact ⟨row, List.mem_of_find?_eq_some hfind, hbuild⟩

/-! ### What the decoder answers (R78) -/

theorem decode_ok_iff {w : Word} {i : Instr} :
    decode w = .ok i ↔ ∃ row ∈ opTable, w &&& row.mask = row.pattern ∧ row.build w = i ∧ i.wellFormed = true := by
  constructor
  · intro h
    unfold decode at h
    split at h
    · cases h
    · next row hfind =>
      split at h
      · cases h
      · next hw =>
        split at h
        · next hwf =>
          cases h
          exact ⟨row, List.mem_of_find?_eq_some hfind, not_not.mp hw, rfl, hwf⟩
        · cases h
  · rintro ⟨row, hrow, hw, rfl, hwf⟩
    rw [decode, find?_op_eq_some.mpr ⟨hrow, op_eq_of_match hrow hw⟩]
    simp [hw, hwf]

theorem decode_illegalOpcode_iff {w : Word} :
    decode w = .error .illegalOpcode ↔ ∀ row ∈ opTable, row.op ≠ w.extractLsb' 0 8 := by
  have hnone : opTable.find? (fun r => r.op == w.extractLsb' 0 8) = none ↔
      ∀ row ∈ opTable, row.op ≠ w.extractLsb' 0 8 := by simp
  rw [← hnone, decode]
  split
  · next hfind => simp [hfind]
  · next row hfind =>
    rw [hfind]
    split
    · simp
    · split <;> simp

/-- R79: the assigned opcodes are those outside the five reserved ranges. -/
theorem mem_assigned_opcodes_iff {op : Nat} : op ∈ opTable.map (fun row => row.op.toNat) ↔
    ¬((0x01 ≤ op ∧ op ≤ 0x0F) ∨ (0x17 ≤ op ∧ op ≤ 0x1F) ∨ (0x29 ≤ op ∧ op ≤ 0x2F) ∨ (0x32 ≤ op ∧ op ≤ 0x3F) ∨
      0x49 ≤ op) := by
  simp [opTable, spongeRows, fieldRows, edwardsRows]
  omega

/-! ### The round trip, and the two decode errors -/

/-- Settles O1: `encode_build` on the command's own word says that the word passes the mask check of the row that builds
the command back. -/
theorem decodeOfEncode : Obligations.DecodeOfEncode := by
  intro i hwf
  obtain ⟨row, hrow, hbuild⟩ := exists_row_build_encode i
  have hkept : encode i = encode i &&& ~~~row.mask ||| row.pattern := by
    simpa only [hbuild] using encode_build hrow (encode i)
  have hmatch : encode i &&& row.mask = row.pattern := by
    rw [hkept, BitVec.and_or_distrib_right, BitVec.and_assoc, BitVec.not_and_self]
    simp [row_pattern_and_mask row hrow]
  exact decode_ok_iff.mpr ⟨row, hrow, hmatch, hbuild, hwf⟩

/-- Settles O2: by `encode_build` the word of the built command has the bits outside the mask, and by the mask check the
bits under it too. -/
theorem encodeOfDecode : Obligations.EncodeOfDecode := by
  intro w i h
  obtain ⟨row, hrow, hw, rfl, hwf⟩ := decode_ok_iff.mp h
  refine ⟨hwf, ?_⟩
  calc encode (row.build w) = w &&& ~~~row.mask ||| w &&& row.mask := by rw [encode_build hrow, hw]
    _ = w &&& (~~~row.mask ||| row.mask) := BitVec.and_or_distrib_left.symm
    _ = w := by rw [BitVec.or_comm, BitVec.or_not_self, BitVec.and_allOnes]

/-- Settles O3: the opcode check by the list of assigned opcodes, and NOP by the round trip. -/
theorem reservedOpcodesIllegal : Obligations.ReservedOpcodesIllegal := by
  refine ⟨fun w => ?_, fun w => ⟨fun h => ?_, ?_⟩⟩
  · have hlow : (w.extractLsb' 0 8).toNat = w.toNat % 256 := by simp
    rw [decode_illegalOpcode_iff, ← not_iff_not, ← mem_assigned_opcodes_iff]
    simp only [not_forall, not_not, exists_prop, List.mem_map, ← hlow, BitVec.toNat_inj]
  · obtain ⟨-, hw⟩ := encodeOfDecode w .nop h
    exact hw.symm
  · rintro rfl
    exact decodeOfEncode .nop rfl

/-- Settles O4: a command's word decodes (O1), and a word that decodes is a command's (O2). -/
theorem illegalFieldIffNoCommandWord : Obligations.IllegalFieldIffNoCommandWord := by
  intro w
  constructor
  · intro h
    refine ⟨by simp [h], ?_⟩
    rintro i hwf rfl
    rw [decodeOfEncode i hwf] at h
    cases h
  · rintro ⟨hop, hno⟩
    cases hw : decode w with
    | ok i =>
      obtain ⟨hwf, hword⟩ := encodeOfDecode w i hw
      exact absurd hword (hno i hwf)
    | error x =>
      cases x with
      | illegalField => rfl
      | illegalOpcode => exact absurd hw hop

/-- Settles O5: each word is the word of its command, so that O1 decodes it. -/
theorem exampleWordsDecode : Obligations.ExampleWordsDecode :=
  ⟨decodeOfEncode .nop rfl, decodeOfEncode (.kinit 1) rfl, decodeOfEncode .kfin rfl, decodeOfEncode .kperm rfl,
    decodeOfEncode (.fadd .p 3 1 2) rfl, decodeOfEncode (.fmul .r 4 5 6) rfl, decodeOfEncode (.fsqrt 2 1 true) rfl,
    decodeOfEncode (.ldbe .r 12) rfl, decodeOfEncode (.stbe 6) rfl, decodeOfEncode (.pmul 2 0 12) rfl,
    decodeOfEncode (.peq 1 2) rfl, decodeOfEncode (.pdec 3 6 false) rfl⟩

/-! ### The engine's turn on a word that is no command (R78, R83, R158) -/

theorem engineTurn_of_decode_error {s : State} {x : DecodeError} (hb : s.busy = true) (hd : decode s.cmdL = .error x) :
    engineTurn s = .next (s.recordError (decodeErrorName x) s.cmdL).finishStep := by
  rw [engineTurn, if_pos hb, engineStep, hd]

/-- Settles O7: the engine's turn records the error, which takes effect only while ERR = 0. -/
theorem stepRecordsDecodeError : Obligations.StepRecordsDecodeError := by
  intro s rest x hb hs hd
  have hstep : step s =
      .next (State.recordError (decodeErrorName x) s.cmdL { s with schedule := rest }).finishStep := by
    rw [step_cons hs]
    exact engineTurn_of_decode_error hb hd
  refine ⟨fun he => ?_, ?_, ?_⟩
  · rw [hstep, recordError_of_err (s := { s with schedule := rest }) he]
    rfl
  · rintro he rfl
    rw [hstep, recordError_of_not_err (s := { s with schedule := rest }) he]
    rfl
  · rintro he rfl
    rw [hstep, recordError_of_not_err (s := { s with schedule := rest }) he]
    rfl

end Sys2Proof.Machine
end

section
/-! What every command does with its errors, its turn and its range, and the commands that complete in every state
(40_common.md; O25, O6, O28, O38). The first two follow from what is said of all commands at once (`exec_next`,
`engineTurn_of_decode`); the last two from one equation per command and branch. -/

namespace Sys2Proof.Machine

/-! ### Errors are precise (R83, R158, R159) -/

theorem CommandEffect.error_eq {i : Instr} {s t : State} (h : CommandEffect i s t) :
    t.err = s.err ∧ t.errCode = s.errCode ∧ t.errInfo = s.errInfo := by
  rw [← h.rest]
  exact ⟨rfl, rfl, rfl⟩

/-- Settles O25: a command's writes leave the error registers out; its error is recorded first, or dropped as ERR = 1. -/
theorem failingCommandsArePrecise : Obligations.FailingCommandsArePrecise := by
  intro i s t h
  rcases exec_next h with hc | ⟨x, -, rfl⟩
  · exact .inl hc.error_eq
  · cases he : s.err with
    | true =>
      rw [recordError_of_err he]
      exact .inl ⟨he, rfl, rfl⟩
    | false => exact .inr ⟨rfl, x, recordError_of_not_err he _ _⟩

/-! ### The engine's turn (R83, R171) -/

/-- Settles O6: a turn of the schedule and the turn past its end are one engine turn each. -/
theorem stepRunsLatchedCommand : Obligations.StepRunsLatchedCommand := by
  refine ⟨fun s i rest hb hd => ⟨fun hs => ?_, fun hs => ?_⟩, fun s rest hb => ⟨fun hs => ?_, fun hs => ?_⟩⟩
  · exact (step_cons hs).trans (engineTurn_of_decode hb hd)
  · exact (step_nil hs).trans (engineTurn_of_decode hb hd)
  · exact (step_cons hs).trans (engineTurn_idle hb)
  · exact (step_nil hs).trans (engineTurn_idle hb)

/-! ### The range check (R85, R86) -/

theorem outOfRange_eq_true_iff {a n : Nat} : outOfRange a n = true ↔ scratchBytes < a + n := by
  simp [outOfRange]

section
variable {s : State}

theorem exec_kabs_outOfRange (hp : s.sponge.phase = .absorbing) (hr : outOfRange s.addr s.len = true) :
    exec .kabs s = .next (s.recordError .range s.cmdL) := by
  show execKabs s = _
  rw [execKabs, if_neg (not_not.mpr hp), if_pos hr, commit_raise]

theorem exec_ksqz_outOfRange (hp : s.sponge.phase = .squeezing) (hr : outOfRange s.addr s.len = true) :
    exec .ksqz s = .next (s.recordError .range s.cmdL) := by
  show execKsqz s = _
  rw [execKsqz, if_neg (not_not.mpr hp), if_pos hr, commit_raise]

theorem exec_kdig_outOfRange {n : Nat} (hp : s.sponge.phase = .absorbing) (hn : digestLen s.sponge.variant = some n)
    (hr : outOfRange s.addr n = true) : exec .kdig s = .next (s.recordError .range s.cmdL) := by
  show execKdig s = _
  rw [execKdig, if_neg (not_not.mpr hp), hn]
  dsimp only
  rw [if_pos hr, commit_raise]

/-- LDBE checks the length of its operand first, and both refusals are Range (R130). -/
theorem exec_ldbe_outOfRange (m : Modulus) (rd : EReg) (h : 64 < s.len ∨ outOfRange s.addr s.len = true) :
    exec (.ldbe m rd) s = .next (s.recordError .range s.cmdL) := by
  show execLdbe m rd s = _
  by_cases hl : 64 < s.len
  · rw [execLdbe, if_pos hl, commit_raise]
  · rw [execLdbe, if_neg hl, if_pos (h.resolve_left hl), commit_raise]

theorem exec_stbe_outOfRange (rs1 : EReg) (hr : outOfRange s.addr 32 = true) :
    exec (.stbe rs1) s = .next (s.recordError .range s.cmdL) := by
  show execStbe rs1 s = _
  rw [execStbe, if_pos hr, commit_raise]

end

/-- Settles O28: each memory command's refusal, the bound read off `outOfRange`. -/
theorem rangeRefusals : Obligations.RangeRefusals := by
  intro s
  refine ⟨fun hp hr => exec_kabs_outOfRange hp ?_, fun hp hr => exec_ksqz_outOfRange hp ?_,
    fun n hp hn hr => exec_kdig_outOfRange hp hn ?_, fun m rd h => exec_ldbe_outOfRange m rd (h.imp_right fun hr => ?_),
    fun rs1 hr => exec_stbe_outOfRange rs1 ?_⟩ <;>
  exact outOfRange_eq_true_iff.mpr hr

/-! ### The commands that complete in every state (R90, R99, R105, R110) -/

theorem exec_nop (s : State) : exec .nop s = .next s := rfl

theorem exec_kperm (s : State) :
    exec .kperm s = .next { s with sponge := { s.sponge with a := keccakF s.sponge.a, pos := 0 } } := rfl

theorem exec_krel (s : State) : exec .krel s = .next { s with sponge := resetSponge } := rfl

theorem exec_kinit_of_variant {v : BitVec 3} {x : Variant} (h : variantOfCode v = some x) (s : State) :
    exec (.kinit v) s = .next { s with sponge := startSponge x } := by
  show execKinit v s = _
  rw [execKinit, h, commit_ok]

theorem exec_kinit_of_no_variant {v : BitVec 3} (h : variantOfCode v = none) (s : State) :
    exec (.kinit v) s = .next (s.recordError .illegalField s.cmdL) := by
  show execKinit v s = _
  rw [execKinit, h, commit_raise]

/-- The codes 0 to 5 are those of the six variants (R10). -/
theorem exists_variantCode_eq {n : Nat} (hn : n ≤ 5) : ∃ x, variantCode x = n := by
  interval_cases n
  · exact ⟨.sha3_224, rfl⟩
  · exact ⟨.sha3_256, rfl⟩
  · exact ⟨.sha3_384, rfl⟩
  · exact ⟨.sha3_512, rfl⟩
  · exact ⟨.shake128, rfl⟩
  · exact ⟨.shake256, rfl⟩

theorem variantOfCode_eq_some {v : BitVec 3} {x : Variant} (h : variantCode x = v.toNat) : variantOfCode v = some x := by
  rw [variantOfCode, ← h]
  cases x <;> rfl

theorem variantOfCode_eq_none : ∀ v : BitVec 3, 5 < v.toNat → variantOfCode v = none := by decide

/-- R10's table of rates, by the variant's code. -/
theorem variantRate_eq_getD (x : Variant) : variantRate x = [144, 136, 104, 72, 168, 136].getD (variantCode x) 0 := by
  cases x <;> rfl

/-- Settles O38: the four commands' equations; KINIT's by whether V is the code of a variant. -/
theorem controlAndStartResults : Obligations.ControlAndStartResults := by
  intro s
  refine ⟨exec_nop s, exec_kperm s, zeroKeccak, fun y _ x _ => lane_zeroKeccak y x, exec_krel s, fun v => ⟨fun hv => ?_,
    fun hv => exec_kinit_of_no_variant (variantOfCode_eq_none v hv) s⟩⟩
  obtain ⟨x, hcode⟩ := exists_variantCode_eq hv
  refine ⟨x, hcode, ?_⟩
  rw [exec_kinit_of_variant (variantOfCode_eq_some hcode), startSponge, variantRate_eq_getD, hcode]

end Sys2Proof.Machine
end

section
/-! The permutation Keccak-f[1600] (41_keccak.md; O36, O37): the lanes of a state after each step mapping, and the round
constants as what the LFSR of R96 gives. -/

namespace Sys2Proof.Machine

/-! ### Indices mod 5 -/

@[simp] theorem Five.get_mod {α : Type} (r : Five α) (i : Nat) : r.get (i % 5) = r.get i := by
  rw [Five.get, Five.get, Nat.mod_mod]

@[simp] theorem lane_mod_left (a : KeccakState) (y x : Nat) : lane a (y % 5) x = lane a y x := by
  rw [lane, lane, Five.get_mod]

@[simp] theorem lane_mod_right (a : KeccakState) (y x : Nat) : lane a y (x % 5) = lane a y x := Five.get_mod _ x

@[simp] theorem columnParity_mod (a : KeccakState) (x : Nat) : columnParity a (x % 5) = columnParity a x := by
  simp only [columnParity, lane_mod_right]

/-- The index `i mod 5 + k` names the same place as `i + k`: the form in which a tabulated rule asks for a neighbour. -/
theorem lane_mod_add_right (a : KeccakState) (y x k : Nat) : lane a y (x % 5 + k) = lane a y (x + k) := by
  rw [← lane_mod_right, Nat.mod_add_mod, lane_mod_right]

theorem columnParity_mod_add (a : KeccakState) (x k : Nat) : columnParity a (x % 5 + k) = columnParity a (x + k) := by
  rw [← columnParity_mod, Nat.mod_add_mod, columnParity_mod]

/-! ### The step mappings lane by lane (R91 to R95) -/

/-- R91, for all indices, taken mod 5. -/
theorem lane_theta (a : KeccakState) (y x : Nat) :
    lane (theta a) y x = lane a y x ^^^ (columnParity a (x + 4) ^^^ (columnParity a (x + 1)).rotateLeft 1) := by
  simp only [theta, lane_tabulateLanes, Five.get_tabulate, lane_mod_left, lane_mod_right, columnParity_mod,
    columnParity_mod_add]

/-- R92, for all indices, taken mod 5. -/
theorem lane_rho (a : KeccakState) (y x : Nat) :
    lane (rho a) y x = (lane a y x).rotateLeft ((rhoTable.get y).get x) := by
  simp only [rho, lane_tabulateLanes, lane_mod_left, lane_mod_right, Five.get_mod]

/-- R93, for all indices, taken mod 5. -/
theorem lane_piStep (a : KeccakState) (y x : Nat) : lane (piStep a) y x = lane a x (x + 3 * y) := by
  have hplace : (x % 5 + 3 * (y % 5)) % 5 = (x + 3 * y) % 5 := by omega
  rw [piStep, lane_tabulateLanes, lane_mod_left, ← lane_mod_right, hplace, lane_mod_right]

/-- R94, for all indices, taken mod 5. -/
theorem lane_chi (a : KeccakState) (y x : Nat) :
    lane (chi a) y x = lane a y x ^^^ (~~~lane a y (x + 1) &&& lane a y (x + 2)) := by
  simp only [chi, lane_tabulateLanes, lane_mod_left, lane_mod_right, lane_mod_add_right]

/-- Iota as a change of one place of one row. -/
theorem iota_eq_modify (rc : Lane) (a : KeccakState) :
    iota rc a = a.modify 0 fun row => row.modify 0 fun l => l ^^^ rc := rfl

/-- R95: iota changes lane A[0][0] and no other. -/
theorem lane_iota (rc : Lane) (a : KeccakState) {y x : Nat} (hy : y < 5) (hx : x < 5) :
    lane (iota rc a) y x = if y = 0 ∧ x = 0 then lane a 0 0 ^^^ rc else lane a y x := by
  simp only [iota_eq_modify, lane, Five.get_modify, Nat.mod_eq_of_lt hy, Nat.zero_mod]
  by_cases hrow : y = 0
  · subst hrow
    by_cases hcol : x = 0
    · subst hcol
      simp [Five.get_modify]
    · simp [Five.get_modify, Nat.mod_eq_of_lt hx, hcol]
  · simp [hrow]

/-- Settles O36: the lanes after theta, pi and chi, a neighbour's index reduced mod 5. -/
theorem keccakStepMappings : Obligations.KeccakStepMappings := by
  intro a y x _ _ c
  have hc : ∀ i, c (i % 5) = columnParity a i := fun i => columnParity_mod a i
  refine ⟨?_, ?_, ?_⟩
  · rw [hc, hc, lane_theta]
  · rw [lane_mod_right, lane_piStep]
  · rw [lane_mod_right, lane_mod_right, lane_chi]

/-! ### The constants (R92, R96) and the rounds (R97) -/

/-- The table of R92, entry by entry. -/
theorem rhoTable_eq_getD : ∀ y < 5, ∀ x < 5, (rhoTable.get y).get x =
    ([[0, 1, 62, 28, 27], [36, 44, 6, 55, 20], [3, 10, 43, 25, 39], [41, 45, 15, 21, 8],
      [18, 2, 61, 56, 14]].getD y []).getD x 0 := by
  decide

/-- The table of R96 is what the LFSR of rc(t) gives for the rounds 0 to 23. -/
theorem roundConstants_eq_map_rcWord : roundConstants = (List.range 24).map rcWord := by
  decide +kernel

theorem keccakF_eq_foldl_range (a : KeccakState) :
    keccakF a = (List.range 24).foldl (fun b i => keccakRound b (rcWord i)) a := by
  rw [keccakF, roundConstants_eq_map_rcWord, List.foldl_map]

/-- A bit of an inclusive or of many words. -/
theorem getLsbD_foldl_or {w : Nat} (l : List (BitVec w)) (z : BitVec w) (k : Nat) :
    (l.foldl (· ||| ·) z).getLsbD k = (z.getLsbD k || l.any fun v => v.getLsbD k) := by
  induction l generalizing z with
  | nil => exact (Bool.or_false _).symm
  | cons v l ih => rw [List.foldl_cons, ih, BitVec.getLsbD_or, Bool.or_assoc, List.any_cons]

/-- A single bit moved to place `n`. -/
theorem getLsbD_ofNat_toNat_mul_two_pow (b : Bool) (n : Nat) {w k : Nat} (hk : k < w) :
    (BitVec.ofNat w (b.toNat * 2 ^ n)).getLsbD k = (k == n && b) := by
  cases b with
  | false => simp
  | true =>
    rw [Bool.toNat_true, Nat.one_mul, BitVec.getLsbD_ofNat, Nat.testBit_two_pow, decide_eq_true hk, Bool.true_and,
      Bool.and_true]
    exact decide_eq_decide.mpr eq_comm

/-- R96: bit 2^j - 1 of a round constant is rc(j + 7 i), and every other bit is 0. -/
theorem getLsbD_rcWord (i : Nat) {k : Nat} (hk : k < 64) :
    (rcWord i).getLsbD k = (List.range 7).any fun j => k == 2 ^ j - 1 && rcBit (j + 7 * i) := by
  rw [rcWord, getLsbD_foldl_or, List.any_map, show (0 : Lane).getLsbD k = false from BitVec.getLsbD_zero,
    Bool.false_or]
  congr 1
  funext j
  exact getLsbD_ofNat_toNat_mul_two_pow _ _ hk

/-- Settles O37: the lanes after rho and iota, the fold over the round numbers, and the bits of the round constants. -/
theorem keccakRounds : Obligations.KeccakRounds := by
  refine ⟨fun a y x hy hx => ⟨?_, fun rc => lane_iota rc a hy hx⟩, keccakF_eq_foldl_range,
    fun i _ k hk => getLsbD_rcWord i hk⟩
  rw [lane_rho, rhoTable_eq_getD y hy x hx]

end Sys2Proof.Machine
end

section
/-! The sponge controller and its commands (42_sponge.md; O27, O39 to O45): one byte absorbed or squeezed, one equation
per command and branch, and from them the phase table, the splits of a message or an output, and KDIG as KFIN and KSQZ. -/

namespace Sys2Proof.Machine

/-! ### One byte, inside a block and at its end (R102, R104) -/

section
variable {k : Sponge}

theorem pos_succ_ne_rate (h : k.pos.toNat + 1 < k.rate.toNat) : k.pos + 1 ≠ k.rate := by bv_omega

theorem pos_succ_eq_rate (h : k.pos.toNat + 1 = k.rate.toNat) : k.pos + 1 = k.rate := by bv_omega

theorem pos_succ_eq_ofNat (p : BitVec 8) : p + 1 = BitVec.ofNat 8 (p.toNat + 1) := by
  rw [BitVec.ofNat_add, BitVec.ofNat_toNat, BitVec.setWidth_eq]
  rfl

theorem absorbByte_inside_block (h : k.pos.toNat + 1 < k.rate.toNat) (b : Byte) :
    absorbByte k b = { k with a := xorByte k.a k.pos.toNat b, pos := BitVec.ofNat 8 (k.pos.toNat + 1) } := by
  rw [absorbByte, if_neg (pos_succ_ne_rate h), pos_succ_eq_ofNat]

theorem absorbByte_block_end (h : k.pos.toNat + 1 = k.rate.toNat) (b : Byte) :
    absorbByte k b = { k with a := keccakF (xorByte k.a k.pos.toNat b), pos := 0 } := by
  rw [absorbByte, if_pos (pos_succ_eq_rate h)]

theorem squeezeByte_inside_block (h : k.pos.toNat + 1 < k.rate.toNat) :
    squeezeByte k = (stateByte k.a k.pos.toNat, { k with pos := BitVec.ofNat 8 (k.pos.toNat + 1) }) := by
  rw [squeezeByte, if_neg (pos_succ_ne_rate h), pos_succ_eq_ofNat]

theorem squeezeByte_block_end (h : k.pos.toNat + 1 = k.rate.toNat) :
    squeezeByte k = (stateByte k.a k.pos.toNat, { k with a := keccakF k.a, pos := 0 }) := by
  rw [squeezeByte, if_pos (pos_succ_eq_rate h)]

end

/-- Settles O39: the equations of AbsorbByte and SqueezeByte, inside the block and at its end. -/
theorem blockSteps : Obligations.BlockSteps := fun _ b _ =>
  ⟨fun hin => ⟨absorbByte_inside_block hin b, squeezeByte_inside_block hin⟩,
    fun hend => ⟨absorbByte_block_end hend b, squeezeByte_block_end hend⟩⟩

/-- Squeezing that stops before the end of the block permutes nothing and moves the cursor only (R104). -/
theorem squeeze_inside_block (n : Nat) (k : Sponge) (h : k.pos.toNat + n < k.rate.toNat) :
    (squeeze n k).2 = { k with pos := BitVec.ofNat 8 (k.pos.toNat + n) } := by
  induction n generalizing k with
  | zero => simp [squeeze]
  | succ n ih =>
    have hpos : (BitVec.ofNat 8 (k.pos.toNat + 1)).toNat = k.pos.toNat + 1 :=
      (BitVec.toNat_ofNat _ _).trans (Nat.mod_eq_of_lt (by have := k.rate.isLt; omega))
    have hstep : (squeezeByte k).2 = { k with pos := BitVec.ofNat 8 (k.pos.toNat + 1) } := by
      rw [squeezeByte_inside_block (by omega)]
    show (squeeze n (squeezeByte k).2).2 = _
    rw [hstep, ih _ (by dsimp only; omega)]
    dsimp only
    rw [hpos, Nat.add_assoc, Nat.add_comm 1 n]

/-! ### Variants (R101, R103) -/

theorem padByte_eq (v : Variant) : padByte v = if variantCode v ≤ 3 then 0x06 else 0x1F := by
  cases v <;> rfl

/-- The pad byte and the final 0x80 where both fall on one byte (R103). -/
theorem padByte_xor_final (v : Variant) : padByte v ^^^ 0x80 = if variantCode v ≤ 3 then 0x86 else 0x9F := by
  cases v <;> rfl

/-- R101's table of digest lengths, by the variant's code. -/
theorem digestLen_of_sha3 {v : Variant} (h : variantCode v ≤ 3) :
    digestLen v = some ([28, 32, 48, 64].getD (variantCode v) 0) := by
  cases v
  case shake128 | shake256 => exact absurd h (by decide)
  all_goals rfl

theorem digestLen_of_shake {v : Variant} (h : 4 ≤ variantCode v) : digestLen v = none :=
  if_pos (decide_eq_true h)

theorem digestLen_le (v : Variant) : ∀ n ∈ digestLen v, n ≤ 64 := by cases v <;> decide

/-! ### The commands, one equation per branch (R100, R106 to R109) -/

section
variable {s : State}

theorem exec_kabs_wrong_phase (hp : s.sponge.phase ≠ .absorbing) :
    exec .kabs s = .next (s.recordError .spongeState s.cmdL) := by
  show execKabs s = _
  rw [execKabs, if_pos hp, commit_raise]

/-- KABS of a range inside the scratchpad whose bytes MemRead gives. -/
theorem exec_kabs_of_readBytes {a n : Nat} {bs : List Byte} (hp : s.sponge.phase = .absorbing) (ha : s.addrL.toNat = a)
    (hn : s.lenL.toNat = n) (hr : a + n ≤ 4096) (hb : readBytes s.scratch a n = some bs) :
    exec .kabs s = .next { s with sponge := absorb s.sponge bs } := by
  subst ha hn
  have hr : outOfRange s.addr s.len = false := outOfRange_eq_false_iff.mpr hr
  have hb : readBytes s.scratch s.addr s.len = some bs := hb
  show execKabs s = _
  rw [execKabs, if_neg (not_not.mpr hp), if_neg (Bool.eq_false_iff.mp hr), hb, commit_ok]

/-- A KABS that passes its phase and range checks and answers a next state has read every byte of its range. -/
theorem exec_kabs_next {t : State} (hp : s.sponge.phase = .absorbing) (hr : outOfRange s.addr s.len = false)
    (h : exec .kabs s = .next t) :
    ∃ bs, readBytes s.scratch s.addr s.len = some bs ∧ t = { s with sponge := absorb s.sponge bs } := by
  cases hb : readBytes s.scratch s.addr s.len with
  | none => rw [exec_kabs_unwritten hp hr hb] at h; cases h
  | some bs =>
    rw [exec_kabs_of_readBytes hp rfl rfl (outOfRange_eq_false_iff.mp hr) hb] at h
    cases h
    exact ⟨bs, rfl, rfl⟩

theorem exec_kfin_wrong_phase (hp : s.sponge.phase ≠ .absorbing) :
    exec .kfin s = .next (s.recordError .spongeState s.cmdL) := by
  show execKfin s = _
  rw [execKfin, if_pos hp, commit_raise]

theorem exec_kfin_absorbing (hp : s.sponge.phase = .absorbing) :
    exec .kfin s = .next { s with sponge := padFinal s.sponge } := by
  show execKfin s = _
  rw [execKfin, if_neg (not_not.mpr hp), commit_ok]

theorem exec_ksqz_wrong_phase (hp : s.sponge.phase ≠ .squeezing) :
    exec .ksqz s = .next (s.recordError .spongeState s.cmdL) := by
  show execKsqz s = _
  rw [execKsqz, if_pos hp, commit_raise]

/-- KSQZ of a range inside the scratchpad. -/
theorem exec_ksqz_inRange {a n : Nat} (hp : s.sponge.phase = .squeezing) (ha : s.addrL.toNat = a)
    (hn : s.lenL.toNat = n) (hr : a + n ≤ 4096) :
    exec .ksqz s = .next { s with
      sponge := (squeeze n s.sponge).2, scratch := writeBytes s.scratch a (squeeze n s.sponge).1 } := by
  subst ha hn
  have hr : outOfRange s.addr s.len = false := outOfRange_eq_false_iff.mpr hr
  show execKsqz s = _
  rw [execKsqz, if_neg (not_not.mpr hp), if_neg (Bool.eq_false_iff.mp hr)]
  exact commit_ok _ _

theorem exec_kdig_wrong_phase (hp : s.sponge.phase ≠ .absorbing) :
    exec .kdig s = .next (s.recordError .spongeState s.cmdL) := by
  show execKdig s = _
  rw [execKdig, if_pos hp, commit_raise]

theorem exec_kdig_no_digest (hn : digestLen s.sponge.variant = none) :
    exec .kdig s = .next (s.recordError .spongeState s.cmdL) := by
  by_cases hp : s.sponge.phase = .absorbing
  · show execKdig s = _
    rw [execKdig, if_neg (not_not.mpr hp), hn, commit_raise]
  · exact exec_kdig_wrong_phase hp

/-- KDIG of a SHA-3 variant whose digest fits the scratchpad. -/
theorem exec_kdig_inRange {n : Nat} (hp : s.sponge.phase = .absorbing) (hn : digestLen s.sponge.variant = some n)
    (hr : s.addrL.toNat + n ≤ 4096) :
    exec .kdig s = .next { s with
      sponge := (squeeze n (padFinal s.sponge)).2,
      scratch := writeBytes s.scratch s.addrL.toNat (squeeze n (padFinal s.sponge)).1 } := by
  have hr : outOfRange s.addr n = false := outOfRange_eq_false_iff.mpr hr
  show execKdig s = _
  rw [execKdig, if_neg (not_not.mpr hp), hn]
  dsimp only
  rw [if_neg (Bool.eq_false_iff.mp hr), commit_ok, State.addr]

/-! ### The phase that a completed command leaves (R100) -/

theorem exec_kabs_phase {t : State} (hp : s.sponge.phase = .absorbing) (h : exec .kabs s = .next t) :
    t.sponge.phase = .absorbing := by
  cases hr : outOfRange s.addr s.len with
  | true =>
    rw [exec_kabs_outOfRange hp hr] at h
    cases h
    rwa [recordError_sponge]
  | false =>
    obtain ⟨bs, -, rfl⟩ := exec_kabs_next hp hr h
    exact (absorb_phase s.sponge bs).trans hp

theorem exec_ksqz_phase {t : State} (hp : s.sponge.phase = .squeezing) (h : exec .ksqz s = .next t) :
    t.sponge.phase = .squeezing := by
  cases hr : outOfRange s.addr s.len with
  | true =>
    rw [exec_ksqz_outOfRange hp hr] at h
    cases h
    rwa [recordError_sponge]
  | false =>
    rw [exec_ksqz_inRange hp rfl rfl (outOfRange_eq_false_iff.mp hr)] at h
    cases h
    exact (squeeze_phase s.len s.sponge).trans hp

theorem exec_kdig_phase (hp : s.sponge.phase = .absorbing) (hv : variantCode s.sponge.variant ≤ 3)
    (hr : s.addrL.toNat + 64 ≤ 4096) : ∃ t, exec .kdig s = .next t ∧ t.sponge.phase = .squeezing := by
  have hn := digestLen_of_sha3 hv
  have hle := digestLen_le _ _ hn
  exact ⟨_, exec_kdig_inRange hp hn (by omega), squeeze_phase _ _⟩

end

/-- Settles O27: the refusals and the phases left, command by command. -/
theorem spongePhaseTable : Obligations.SpongePhaseTable := by
  intro s
  refine ⟨fun v hv => ?kinit, fun hp => ⟨exec_kabs_wrong_phase hp, exec_kfin_wrong_phase hp, exec_kdig_wrong_phase hp⟩,
    exec_ksqz_wrong_phase, fun hv => exec_kdig_no_digest (digestLen_of_shake hv), fun _ => exec_kabs_phase,
    fun hp => ⟨_, exec_kfin_absorbing hp, rfl⟩, fun _ => exec_ksqz_phase, exec_kdig_phase, ⟨_, exec_kperm s, rfl⟩,
    ⟨_, exec_krel s, rfl⟩⟩
  case kinit =>
    obtain ⟨x, hcode⟩ := exists_variantCode_eq hv
    exact ⟨_, exec_kinit_of_variant (variantOfCode_eq_some hcode) s, rfl⟩

/-! ### Absorbing (R106) -/

/-- Settles O40: MemRead gives the written bytes in order, and KABS absorbs what it gives. -/
theorem kabsResult : Obligations.KabsResult := fun _ f hp hr hbytes =>
  exec_kabs_of_readBytes hp rfl rfl hr (readBytes_eq_some _ _ _ f hbytes)

/-- Settles O41: MemRead of the whole range is MemRead of the parts, and so is absorbing (`absorb_append`). -/
theorem splitAbsorb : Obligations.SplitAbsorb := by
  intro s t n₁ n₂ hp hlen hr h
  obtain ⟨bs, hbs, rfl⟩ := exec_kabs_next hp (outOfRange_eq_false_iff.mpr hr) h
  rw [State.len, hlen] at hbs
  obtain ⟨bs₁, bs₂, hbs₁, hbs₂, rfl⟩ := readBytes_append hbs
  have hn₁ : (BitVec.ofNat 13 n₁).toNat = n₁ := toNat_offset (by omega)
  have hn₂ : (BitVec.ofNat 13 n₂).toNat = n₂ := toNat_offset (by omega)
  have ha : (BitVec.ofNat 13 (s.addrL.toNat + n₁)).toNat = s.addrL.toNat + n₁ := toNat_offset (by omega)
  refine ⟨_, exec_kabs_of_readBytes hp rfl hn₁ (by dsimp only; omega) hbs₁, ?_⟩
  rw [absorb_append]
  exact exec_kabs_of_readBytes ((absorb_phase _ _).trans hp) ha hn₂ (by omega) hbs₂

/-! ### Finalizing (R103, R107) -/

/-- Settles O42: PadFinal with the pad byte by the variant, and the byte rule of XorByte twice at one place. -/
theorem kfinResult : Obligations.KfinResult := by
  intro s hp pad padded
  have hpad : pad = padByte s.sponge.variant := (padByte_eq _).symm
  refine ⟨?_, fun hlast hpos => ?_⟩
  · rw [exec_kfin_absorbing hp, padFinal, ← hpad]
  · show stateByte (xorByte (xorByte s.sponge.a s.sponge.pos.toNat pad) (s.sponge.rate.toNat - 1) 0x80) _ = _
    rw [← hlast, stateByte_xorByte _ _ hpos hpos, if_pos rfl, stateByte_xorByte _ _ hpos hpos, if_pos rfl,
      BitVec.xor_assoc, hpad, padByte_xor_final]

/-! ### Squeezing (R104, R108) -/

/-- What a squeeze of `n` bytes puts into memory, byte by byte. -/
theorem readByte_writeBytes_squeeze (m : Memory) (a n : Nat) (k : Sponge) (a' : Nat) :
    readByte (writeBytes m a (squeeze n k).1) a' =
      if a ≤ a' ∧ a' < a + n then
        some (stateByte ((fun k => (squeezeByte k).2)^[a' - a] k).a ((fun k => (squeezeByte k).2)^[a' - a] k).pos.toNat)
      else readByte m a' := by
  rw [readByte_writeBytes, length_squeeze]
  split
  · next h => exact getElem?_squeeze n (a' - a) k (by omega)
  · rfl

/-- Settles O43: the equation of KSQZ, its sponge by `squeeze_snd` and its bytes by `readByte_writeBytes_squeeze`. -/
theorem ksqzResult : Obligations.KsqzResult := by
  intro s hp hr sponge
  refine ⟨_, ?_, readByte_writeBytes_squeeze s.scratch s.addr s.len s.sponge⟩
  rw [exec_ksqz_inRange hp rfl rfl hr, squeeze_snd]
  rfl

/-- MemWrite of two sequences is MemWrite of one and then of the other behind it. -/
theorem writeBytes_append (m : Memory) (a : Nat) (bs₁ bs₂ : List Byte) :
    writeBytes m a (bs₁ ++ bs₂) = writeBytes (writeBytes m a bs₁) (a + bs₁.length) bs₂ := by
  induction bs₁ generalizing m a with
  | nil => rfl
  | cons b bs₁ ih =>
    rw [List.cons_append, writeBytes, ih, writeBytes, List.length_cons, Nat.add_right_comm, Nat.add_assoc]

/-- Settles O44: the three squeezes complete, and `squeeze_add` and `writeBytes_append` make the parts the whole. -/
theorem splitSqueeze : Obligations.SplitSqueeze := by
  intro s n₁ n₂ hp hlen hr
  have hn₁ : (BitVec.ofNat 13 n₁).toNat = n₁ := toNat_offset (by omega)
  have hn₂ : (BitVec.ofNat 13 n₂).toNat = n₂ := toNat_offset (by omega)
  have ha : (BitVec.ofNat 13 (s.addrL.toNat + n₁)).toNat = s.addrL.toNat + n₁ := toNat_offset (by omega)
  refine ⟨_, _, _, exec_ksqz_inRange hp rfl hlen (by omega), exec_ksqz_inRange hp rfl hn₁ (by dsimp only; omega),
    exec_ksqz_inRange ((squeeze_phase _ _).trans hp) ha hn₂ (by omega), ?_, fun a => ?_⟩
  · rw [squeeze_add]
  · dsimp only
    rw [squeeze_add, writeBytes_append, length_squeeze]

/-! ### KDIG (R109) -/

/-- A digest is shorter than its variant's block, so squeezing it permutes nothing (R101). -/
theorem squeeze_digest {k : Sponge} {n : Nat} (hn : digestLen k.variant = some n)
    (hr : k.rate.toNat = variantRate k.variant) :
    (squeeze n (padFinal k)).2 = { padFinal k with pos := BitVec.ofNat 8 n } := by
  have hlt : 0 + n < k.rate.toNat := by rw [hr, Nat.zero_add]; exact digestLen_lt_rate hn
  rw [squeeze_inside_block n (padFinal k) hlt]
  show { padFinal k with pos := BitVec.ofNat 8 (0 + n) } = _
  rw [Nat.zero_add]

/-- Settles O45: the equations of KFIN, KSQZ and KDIG agree; the digest lies inside one block. -/
theorem kdigIsFinalizeThenSqueeze : Obligations.KdigIsFinalizeThenSqueeze := by
  intro s n hp hv hn hr
  have hdigest : digestLen s.sponge.variant = some n := hn ▸ digestLen_of_sha3 hv
  have hle : n ≤ 64 := digestLen_le _ _ hdigest
  refine ⟨_, _, exec_kfin_absorbing hp,
    exec_ksqz_inRange (a := s.addrL.toNat) rfl rfl (toNat_offset (by omega)) hr,
    exec_kdig_inRange hp hdigest hr, fun a ha => ?_, fun hrate => ?_⟩
  · exact (readByte_writeBytes_squeeze _ _ n _ a).trans (if_neg (by omega))
  · dsimp only
    rw [squeeze_digest hdigest hrate]
    exact ⟨rfl, (BitVec.toNat_ofNat _ _).trans (Nat.mod_eq_of_lt (by omega)), rfl⟩

end Sys2Proof.Machine
end


section
/-! Field arithmetic and the scratchpad transfers (43_field.md; O46 to O51): what the helpers inv_m, sqrt_p and BE compute,
and one equation per command and branch. -/

namespace Sys2Proof.Machine

/-! ### The commands that complete in every state (R121 to R125, R127, R129) -/

section
variable (m : Modulus) (rd rs1 rs2 : EReg) (s : State)

theorem exec_fadd : exec (.fadd m rd rs1 rs2) s =
    .next (s.writeField rd ((s.readE rs1 + s.readE rs2) % modulusValue m)) := rfl

theorem exec_fsub : exec (.fsub m rd rs1 rs2) s =
    .next (s.writeField rd (modInt ((s.readE rs1 : Int) - s.readE rs2) (modulusValue m))) := rfl

theorem exec_fmul : exec (.fmul m rd rs1 rs2) s =
    .next (s.writeField rd (s.readE rs1 * s.readE rs2 % modulusValue m)) := rfl

theorem exec_fneg : exec (.fneg m rd rs1) s =
    .next (s.writeField rd (modInt (0 - (s.readE rs1 : Int)) (modulusValue m))) := rfl

theorem exec_fred : exec (.fred m rd rs1) s = .next (s.writeField rd (s.readE rs1 % modulusValue m)) := rfl

theorem exec_fmov : exec (.fmov rd rs1) s = .next (s.writeField rd (s.readE rs1)) := rfl

/-- The power that FPOW finds digit by digit is the power itself (`powMod_eq`). -/
theorem exec_fpow : exec (.fpow m rd rs1 rs2) s =
    .next (s.writeField rd (s.readE rs1 ^ s.readE rs2 % modulusValue m)) := by
  show execFpow m rd rs1 rs2 s = _
  rw [execFpow, commit_ok, powMod_eq]

end

/-- Settles O46: the six commands' equations, at each modulus. -/
theorem ringCommandResults : Obligations.RingCommandResults := by
  intro m rd rs1 rs2 s
  cases m <;>
  exact ⟨exec_fadd _ rd rs1 rs2 s, exec_fsub _ rd rs1 rs2 s, exec_fmul _ rd rs1 rs2 s, exec_fneg _ rd rs1 s,
    exec_fred _ rd rs1 s, exec_fmov rd rs1 s⟩

/-- Settles O47: FPOW's equation. -/
theorem fpowResult : Obligations.FpowResult := exec_fpow

/-! ### The inverse (R118, R126) -/

theorem exec_finv_of_inverse {m : Modulus} {rs1 : EReg} {s : State} {x : Nat}
    (h : invMod (modulusValue m) (s.readE rs1) = some x) (rd : EReg) :
    exec (.finv m rd rs1) s = .next (s.writeField rd x) := by
  show execFinv m rd rs1 s = _
  rw [execFinv, h, commit_ok]

theorem exec_finv_of_no_inverse {m : Modulus} {rs1 : EReg} {s : State}
    (h : invMod (modulusValue m) (s.readE rs1) = none) (rd : EReg) :
    exec (.finv m rd rs1) s = .next (s.recordError .noInverse s.cmdL) := by
  show execFinv m rd rs1 s = _
  rw [execFinv, h, commit_raise]

/-- There is at most one inverse below the modulus: y = y * (a * x) = (a * y) * x = x. -/
theorem eq_of_mul_mod_eq_one {m a x y : Nat} (hx : x < m) (hy : y < m) (hax : a * x % m = 1) (hay : a * y % m = 1) :
    y = x :=
  calc y = y * (a * x % m) % m := by rw [hax, Nat.mul_one, Nat.mod_eq_of_lt hy]
    _ = a * y * x % m := by rw [Nat.mul_mod_mod, Nat.mul_left_comm, Nat.mul_assoc]
    _ = x := by rw [← Nat.mod_mul_mod, hay, Nat.one_mul, Nat.mod_eq_of_lt hx]

/-- Settles O48: the inverse of `invMod_spec`, which is not 0 since 0 is no inverse. -/
theorem finvResult : Obligations.FinvResult := by
  intro m rd rs1 s
  refine ⟨fun ha => ?_, fun ha => exec_finv_of_no_inverse ((invMod_eq_none_iff _ _).mpr ha) rd⟩
  obtain ⟨x, hinv, hlt, hone⟩ := invMod_spec (modulusValue_prime m) ha
  have hx : x ≠ 0 := by
    rintro rfl
    simp at hone
  refine ⟨x, ⟨Nat.pos_of_ne_zero hx, hlt, hone⟩, fun y _ hy hay => eq_of_mul_mod_eq_one hlt hy hone hay, ?_⟩
  rw [exec_finv_of_inverse hinv, State.writeField, decide_eq_false hx]
  rfl

/-! ### The square root (R119, R120, R128) -/

/-- The one of `c` and its negative modulo p that has the parity asked for. -/
def rootOfParity (c : Nat) (lsb : Bool) : Nat := if c % 2 = lsb.toNat then c else (primeP - c) % primeP

theorem sqrtP_eq (v : Nat) (lsb : Bool) : sqrtP v lsb =
    let c := rootOfParity (powMod primeP (v % primeP) ((primeP + 1) / 4)) lsb
    if c * c % primeP = v % primeP then some c else none := rfl

section
variable {c : Nat}

theorem rootOfParity_lt (hc : c < primeP) (lsb : Bool) : rootOfParity c lsb < primeP := by
  unfold rootOfParity
  split
  · exact hc
  · exact Nat.mod_lt _ primeP_pos

/-- p is odd, so of a number that is not 0 and its negative one is even and one is odd. -/
theorem rootOfParity_mod_two (hc : c < primeP) (h0 : c ≠ 0) (lsb : Bool) : rootOfParity c lsb % 2 = lsb.toNat := by
  have hodd : primeP % 2 = 1 := by decide
  unfold rootOfParity
  split
  · assumption
  · have hneg : (primeP - c) % primeP = primeP - c := Nat.mod_eq_of_lt (by omega)
    have hbit := lsb.toNat_lt
    omega

/-- Both candidates have the same square. -/
theorem rootOfParity_mul_self (hc : c < primeP) (lsb : Bool) :
    rootOfParity c lsb * rootOfParity c lsb % primeP = c * c % primeP := by
  unfold rootOfParity
  split
  · rfl
  · rw [Nat.mod_mul_mod, Nat.mul_mod_mod, ← ZMod.natCast_eq_natCast_iff']
    push_cast [Nat.cast_sub hc.le]
    simp

end

/-- As p = 3 mod 4, the power (p + 1) / 4 of a square is a root of it: (x^2)^((p + 1) / 2) = x^p * x = x^2 (R119). -/
theorem powMod_root_mul_self {w x : Nat} (h : x * x % primeP = w % primeP) :
    powMod primeP w ((primeP + 1) / 4) * powMod primeP w ((primeP + 1) / 4) % primeP = w % primeP := by
  have hf := Fact.mk primeP_prime
  have hp : (primeP + 1) / 4 + (primeP + 1) / 4 = (primeP + 1) / 2 ∧ (primeP + 1) / 2 * 2 = primeP + 1 := by decide
  rw [← ZMod.natCast_eq_natCast_iff'] at h
  rw [powMod_eq, Nat.mod_mul_mod, Nat.mul_mod_mod, ← pow_add, hp.1, ← ZMod.natCast_eq_natCast_iff']
  push_cast at h ⊢
  rw [← h, ← pow_two, ← pow_mul, mul_comm 2, hp.2, pow_succ, ZMod.pow_card, pow_two]

/-- sqrt_p of a square is the root of the parity asked for, and 0 for 0 (R119, R120). -/
theorem sqrtP_of_square {v x : Nat} (h : x * x % primeP = v % primeP) (lsb : Bool) :
    ∃ c, sqrtP v lsb = some c ∧ c < primeP ∧ c * c % primeP = v % primeP ∧ (v % primeP ≠ 0 → c % 2 = lsb.toNat) := by
  have hroot := powMod_root_mul_self (w := v % primeP) (h.trans (Nat.mod_mod _ _).symm)
  rw [Nat.mod_mod] at hroot
  rw [sqrtP_eq]
  generalize hc : powMod primeP (v % primeP) ((primeP + 1) / 4) = c at hroot ⊢
  have hlt : c < primeP := by
    rw [← hc, powMod_eq]
    exact Nat.mod_lt _ primeP_pos
  have hsquare := (rootOfParity_mul_self hlt lsb).trans hroot
  refine ⟨rootOfParity c lsb, if_pos hsquare, rootOfParity_lt hlt lsb, hsquare, fun hv => ?_⟩
  refine rootOfParity_mod_two hlt ?_ lsb
  rintro rfl
  exact hv (hroot.symm.trans (by simp))

/-- sqrt_p checks its answer, so what is no square has none (R119). -/
theorem sqrtP_of_not_square {v : Nat} (h : ∀ x, x * x % primeP ≠ v % primeP) (lsb : Bool) : sqrtP v lsb = none := by
  rw [sqrtP_eq]
  exact if_neg (h _)

theorem exec_fsqrt_of_root {rs1 : EReg} {lsb : Bool} {s : State} {c : Nat} (h : sqrtP (s.readE rs1) lsb = some c)
    (rd : EReg) : exec (.fsqrt rd rs1 lsb) s = .next ((s.writeField rd c).setNoroot false) := by
  show execFsqrt rd rs1 lsb s = _
  rw [execFsqrt, h, commit_ok]

theorem exec_fsqrt_of_no_root {rs1 : EReg} {lsb : Bool} {s : State} (h : sqrtP (s.readE rs1) lsb = none) (rd : EReg) :
    exec (.fsqrt rd rs1 lsb) s = .next (s.setNoroot true) := by
  show execFsqrt rd rs1 lsb s = _
  rw [execFsqrt, h, commit_ok]

/-- Settles O49: FSQRT's two equations, by whether sqrt_p has an answer. -/
theorem fsqrtResult : Obligations.FsqrtResult := by
  intro rd rs1 lsb s
  refine ⟨fun ⟨x, hx⟩ => ?_, fun h => exec_fsqrt_of_no_root (sqrtP_of_not_square h lsb) rd⟩
  obtain ⟨c, hc, hlt, hsquare, hparity⟩ := sqrtP_of_square hx lsb
  exact ⟨c, hlt, hsquare, hparity, exec_fsqrt_of_root hc rd⟩

/-! ### The scratchpad transfers (R15, R130, R131) -/

theorem beValue_concat (bs : List Byte) (b : Byte) : beValue (bs ++ [b]) = 256 * beValue bs + b.toNat := by
  simp [beValue]

/-- The big-endian value weighs byte `i` of `n` with 256^(n-1-i) (R15). -/
theorem beValue_map_range (f : Nat → Byte) (n : Nat) :
    beValue ((List.range n).map f) = ((List.range n).map fun i => (f i).toNat * 256 ^ (n - 1 - i)).sum := by
  induction n with
  | zero => rfl
  | succ n ih =>
    have hweight : ∀ i ∈ List.range n,
        (f i).toNat * 256 ^ (n + 1 - 1 - i) = 256 * ((f i).toNat * 256 ^ (n - 1 - i)) := fun i hi => by
      rw [show n + 1 - 1 - i = n - 1 - i + 1 by have := List.mem_range.mp hi; omega, pow_succ]
      ring
    rw [List.range_succ, List.map_append, List.map_append, List.sum_append, List.map_congr_left hweight,
      List.sum_map_mul_left, ← ih]
    simp [beValue_concat]

/-- LDBE of a range inside the scratchpad whose bytes MemRead gives. -/
theorem exec_ldbe_of_readBytes {s : State} {bs : List Byte} (hl : s.len ≤ 64) (hr : s.addr + s.len ≤ 4096)
    (hb : readBytes s.scratch s.addr s.len = some bs) (m : Modulus) (rd : EReg) :
    exec (.ldbe m rd) s = .next (s.writeField rd (beValue bs % modulusValue m)) := by
  have hr : outOfRange s.addr s.len = false := outOfRange_eq_false_iff.mpr hr
  show execLdbe m rd s = _
  rw [execLdbe, if_neg (Nat.not_lt.mpr hl), if_neg (Bool.eq_false_iff.mp hr), hb, commit_ok]

/-- Settles O50: MemRead gives the bytes (`readBytes_eq_some`), and `beValue_map_range` their value. -/
theorem ldbeResult : Obligations.LdbeResult := by
  intro m rd s f hl hr hbytes
  have h := exec_ldbe_of_readBytes hl hr (readBytes_eq_some _ _ _ f hbytes) m rd
  rwa [beValue_map_range] at h

/-- STBE of 32 bytes inside the scratchpad. -/
theorem exec_stbe_inRange {s : State} (hr : s.addr + 32 ≤ 4096) (rs1 : EReg) :
    exec (.stbe rs1) s = .next { s with scratch := writeBytes s.scratch s.addr (be32 s.e[rs1]) } := by
  have hr : outOfRange s.addr 32 = false := outOfRange_eq_false_iff.mpr hr
  show execStbe rs1 s = _
  rw [execStbe, if_neg (Bool.eq_false_iff.mp hr), commit_ok]

/-- What a store of a register puts into memory, byte by byte. -/
theorem readByte_writeBytes_be32 (m : Memory) (a : Nat) (v : Elem) (a' : Nat) :
    readByte (writeBytes m a (be32 v)) a' =
      if a ≤ a' ∧ a' < a + 32 then some (BitVec.ofNat 8 (v.toNat / 256 ^ (31 - (a' - a)))) else readByte m a' := by
  rw [readByte_writeBytes, length_be32]
  split
  · next h => exact getElem?_beBytes v.toNat 32 (a' - a) (by omega)
  · rfl

/-- Settles O51: the equation of STBE, its bytes by `readByte_writeBytes_be32`. -/
theorem stbeResult : Obligations.StbeResult := fun rs1 s hr =>
  ⟨_, exec_stbe_inRange hr rs1, readByte_writeBytes_be32 s.scratch s.addr s.e[rs1]⟩

end Sys2Proof.Machine
end


section
/-! Edwards points (44_edwards.md; O52 to O60): the curve over a field in which d is no square, what EdAdd and EdMulRaw
compute in the field of p elements, what PDEC finds, and one equation per command and branch. -/

namespace Sys2Proof.Machine

/-! ### The curve over a field (R132, R139, R140) -/

/-- The curve equation x^2 + y^2 = 1 + d*x^2*y^2 (R132). -/
def EdwardsEq {F : Type} [CommRing F] (d x y : F) : Prop := x * x + y * y = 1 + d * x * x * y * y

section
variable {F : Type} [Field F] {d x₁ y₁ x₂ y₂ : F}

/-- On the curve, e = d*x₁*x₂*y₁*y₂ with e^2 = 1 makes d a square, unless x₂ + y₂ = 0: then
(x₁ + e*y₁)^2 = d * (x₁*y₁*(x₂ + y₂))^2. -/
theorem isSquare_of_product_sq_eq_one (h₁ : EdwardsEq d x₁ y₁) (h₂ : EdwardsEq d x₂ y₂)
    (he : (d * x₁ * x₂ * y₁ * y₂) ^ 2 = 1) (hsum : x₂ + y₂ ≠ 0) : IsSquare d := by
  have hxy : x₁ * y₁ * (x₂ + y₂) ≠ 0 := by
    refine mul_ne_zero (mul_ne_zero ?_ ?_) hsum <;> rintro rfl <;> simp at he
  have hsq : d * (x₁ * y₁ * (x₂ + y₂)) ^ 2 = (x₁ + d * x₁ * x₂ * y₁ * y₂ * y₁) ^ 2 := by
    unfold EdwardsEq at h₁ h₂
    linear_combination d * x₁ ^ 2 * y₁ ^ 2 * h₂ - h₁ + (1 - y₁ ^ 2) * he
  refine ⟨(x₁ + d * x₁ * x₂ * y₁ * y₂ * y₁) / (x₁ * y₁ * (x₂ + y₂)), ?_⟩
  rw [← pow_two, div_pow, ← hsq, mul_div_cancel_right₀ _ (pow_ne_zero 2 hxy)]

/-- The completeness theorem for Edwards curves (R140): as x₂ ≠ 0, one of x₂ + y₂ and x₂ - y₂ is not 0, and the point
(x₂, -y₂) is on the curve as well. -/
theorem product_sq_ne_one (hd : ¬ IsSquare d) (two_ne : (2 : F) ≠ 0) (h₁ : EdwardsEq d x₁ y₁)
    (h₂ : EdwardsEq d x₂ y₂) : (d * x₁ * x₂ * y₁ * y₂) ^ 2 ≠ 1 := by
  intro he
  by_cases hsum : x₂ + y₂ = 0
  · have hx₂ : x₂ ≠ 0 := by rintro rfl; simp at he
    refine hd (isSquare_of_product_sq_eq_one (y₂ := -y₂) h₁ ?_ (by rw [mul_neg, neg_sq]; exact he) ?_)
    · unfold EdwardsEq at h₂ ⊢
      linear_combination h₂
    · rw [show x₂ + -y₂ = 2 * x₂ by linear_combination -hsum]
      exact mul_ne_zero two_ne hx₂
  · exact hd (isSquare_of_product_sq_eq_one h₁ h₂ he hsum)

/-- Neither denominator of the addition law is 0 for two curve points (R140). -/
theorem denominators_ne_zero (hd : ¬ IsSquare d) (two_ne : (2 : F) ≠ 0) (h₁ : EdwardsEq d x₁ y₁)
    (h₂ : EdwardsEq d x₂ y₂) : 1 + d * x₁ * x₂ * y₁ * y₂ ≠ 0 ∧ 1 - d * x₁ * x₂ * y₁ * y₂ ≠ 0 := by
  have he := product_sq_ne_one hd two_ne h₁ h₂
  refine ⟨fun h => he ?_, fun h => he ?_⟩
  · linear_combination (d * x₁ * x₂ * y₁ * y₂ - 1) * h
  · linear_combination -(1 + d * x₁ * x₂ * y₁ * y₂) * h

/-- The denominator of x^2 = (1 - y^2)/(1 - d*y^2) is never 0: d would be the square of 1/y (R152). -/
theorem one_sub_mul_sq_ne_zero (hd : ¬ IsSquare d) (y : F) : 1 - d * y * y ≠ 0 := by
  intro h
  refine hd ⟨y⁻¹, ?_⟩
  rw [← mul_inv]
  refine eq_inv_of_mul_eq_one_left ?_
  linear_combination -h

/-- The sum of two curve points is a curve point (R139): the curve equation of the two fractions, cleared of their
denominators, is a combination of the two points' equations. -/
theorem EdwardsEq.add {x₃ y₃ : F} (h₁ : EdwardsEq d x₁ y₁) (h₂ : EdwardsEq d x₂ y₂)
    (hp : 1 + d * x₁ * x₂ * y₁ * y₂ ≠ 0) (hm : 1 - d * x₁ * x₂ * y₁ * y₂ ≠ 0)
    (hx : x₃ * (1 + d * x₁ * x₂ * y₁ * y₂) = x₁ * y₂ + y₁ * x₂)
    (hy : y₃ * (1 - d * x₁ * x₂ * y₁ * y₂) = y₁ * y₂ - x₁ * x₂) : EdwardsEq d x₃ y₃ := by
  have cleared : (x₁ * y₂ + y₁ * x₂) ^ 2 * (1 - d * x₁ * x₂ * y₁ * y₂) ^ 2 +
      (y₁ * y₂ - x₁ * x₂) ^ 2 * (1 + d * x₁ * x₂ * y₁ * y₂) ^ 2 =
      ((1 + d * x₁ * x₂ * y₁ * y₂) * (1 - d * x₁ * x₂ * y₁ * y₂)) ^ 2 +
        d * (x₁ * y₂ + y₁ * x₂) ^ 2 * (y₁ * y₂ - x₁ * x₂) ^ 2 := by
    unfold EdwardsEq at h₁ h₂
    linear_combination
      (1 + d * x₂ ^ 2 * y₂ ^ 2 * ((d * x₁ * x₂ * y₁ * y₂) ^ 2 - (x₁ ^ 2 + y₁ ^ 2))) * h₁ +
      ((1 + (d * x₁ * x₂ * y₁ * y₂) ^ 2) * (x₁ ^ 2 + y₁ ^ 2) -
        d * x₁ ^ 2 * y₁ ^ 2 * (1 + d * x₂ ^ 2 * y₂ ^ 2 + (x₂ ^ 2 + y₂ ^ 2))) * h₂
  rw [← hx, ← hy] at cleared
  refine mul_left_cancel₀ (pow_ne_zero 2 (mul_ne_zero hp hm)) ?_
  linear_combination cleared

end

/-! ### EdAdd in the field of p elements (R118, R132, R139) -/

theorem onCurve_iff_edwardsEq (q : Point) : onCurve q = true ↔ EdwardsEq (curveD : ZMod primeP) q.1 q.2 := by
  have h : onCurve q = true ↔ modInt ((q.1 : Int) * q.1 + q.2 * q.2 - 1 - curveD * q.1 * q.1 * q.2 * q.2) primeP = 0 :=
    decide_eq_true_iff
  rw [h, modInt_eq_zero_iff primeP_pos, EdwardsEq]
  push_cast
  rw [sub_sub, sub_eq_zero]

/-- d*x₁*x₂*y₁*y₂ modulo p, the D of R139. -/
def edProduct (a b : Point) : ZMod primeP := curveD * a.1 * b.1 * a.2 * b.2

/-- inv_p of a reduced integer, by whether the integer is 0 modulo p. -/
theorem invMod_modInt_cases (v : Int) :
    ((v : ZMod primeP) = 0 ∧ invMod primeP (modInt v primeP) = none) ∨
    ((v : ZMod primeP) ≠ 0 ∧
      ∃ i, invMod primeP (modInt v primeP) = some i ∧ (i : ZMod primeP) = (v : ZMod primeP)⁻¹) := by
  have hzero : modInt v primeP % primeP = 0 ↔ (v : ZMod primeP) = 0 := by
    rw [Nat.mod_eq_of_lt (modInt_lt primeP_pos v), modInt_eq_zero_iff primeP_pos]
  by_cases hv : (v : ZMod primeP) = 0
  · exact .inl ⟨hv, (invMod_eq_none_iff _ _).mpr (hzero.mpr hv)⟩
  · obtain ⟨i, hi, -, -⟩ := invMod_spec primeP_prime (mt hzero.mp hv)
    exact .inr ⟨hv, i, hi, by rw [invMod_zmod primeP_prime hi, modInt_zmod primeP_pos]⟩

/-- The fraction n / w, reduced, is the one number below p that w takes to n. -/
theorem modInt_fraction_eq_iff {n : Int} {i x : Nat} {w : ZMod primeP} (hw : w ≠ 0) (hi : (i : ZMod primeP) = w⁻¹) :
    modInt (n * i) primeP = x ↔ x < primeP ∧ (x : ZMod primeP) * w = n := by
  have hf := Fact.mk primeP_prime
  have hcast : ((modInt (n * i) primeP : Nat) : ZMod primeP) * w = n := by
    rw [modInt_zmod primeP_pos]
    push_cast
    rw [hi, mul_assoc, inv_mul_cancel₀ hw, mul_one]
  constructor
  · rintro rfl
    exact ⟨modInt_lt primeP_pos _, hcast⟩
  · rintro ⟨hx, hxw⟩
    exact eq_of_zmod_eq (modInt_lt primeP_pos _) hx (mul_right_cancel₀ hw (hcast.trans hxw.symm))

/-- The pair below p that the two fractions of the addition law name (R139). -/
def IsSum (a b q : Point) : Prop :=
  (q.1 < primeP ∧ (q.1 : ZMod primeP) * (1 + edProduct a b) = a.1 * b.2 + a.2 * b.1) ∧
  (q.2 < primeP ∧ (q.2 : ZMod primeP) * (1 - edProduct a b) = a.2 * b.2 - a.1 * b.1)

/-- What EdAdd can answer: nothing where a denominator is 0, and else the one pair that the fractions name (R139). -/
theorem edAdd_cases (a b : Point) :
    ((1 + edProduct a b = 0 ∨ 1 - edProduct a b = 0) ∧ edAdd a b = none) ∨
    ((1 + edProduct a b ≠ 0 ∧ 1 - edProduct a b ≠ 0) ∧ ∃ q, edAdd a b = some q ∧ ∀ t, q = t ↔ IsSum a b t) := by
  have hp := invMod_modInt_cases (1 + (curveD : Int) * a.1 * b.1 * a.2 * b.2)
  have hm := invMod_modInt_cases (1 - (curveD : Int) * a.1 * b.1 * a.2 * b.2)
  push_cast at hp hm
  obtain ⟨hp, hip⟩ | ⟨hp, i₁, hip, hi₁⟩ := hp
  · exact .inl ⟨.inl hp, by simp only [edAdd, hip]⟩
  obtain ⟨hm, him⟩ | ⟨hm, i₂, him, hi₂⟩ := hm
  · exact .inl ⟨.inr hm, by simp only [edAdd, hip, him]⟩
  refine .inr ⟨⟨hp, hm⟩, (modInt ((a.1 * b.2 + a.2 * b.1 : Int) * i₁) primeP,
    modInt ((a.2 * b.2 - a.1 * b.1 : Int) * i₂) primeP), by simp only [edAdd, hip, him], fun t => ?_⟩
  have hx := modInt_fraction_eq_iff (n := a.1 * b.2 + a.2 * b.1) (x := t.1) hp hi₁
  have hy := modInt_fraction_eq_iff (n := a.2 * b.2 - a.1 * b.1) (x := t.2) hm hi₂
  push_cast at hx hy
  exact Prod.ext_iff.trans (and_congr hx hy)

section
variable {a b : Point}

theorem edAdd_eq_none (h : 1 + edProduct a b = 0 ∨ 1 - edProduct a b = 0) : edAdd a b = none := by
  obtain ⟨-, hnone⟩ | ⟨hden, -⟩ := edAdd_cases a b
  · exact hnone
  · exact absurd h (not_or.mpr hden)

theorem exists_edAdd (hden : 1 + edProduct a b ≠ 0 ∧ 1 - edProduct a b ≠ 0) :
    ∃ q, edAdd a b = some q ∧ ∀ t, q = t ↔ IsSum a b t := by
  obtain ⟨h0, -⟩ | ⟨-, hsome⟩ := edAdd_cases a b
  · exact absurd h0 (not_or.mpr hden)
  · exact hsome

theorem edAdd_eq_some {q : Point} (hden : 1 + edProduct a b ≠ 0 ∧ 1 - edProduct a b ≠ 0) (h : IsSum a b q) :
    edAdd a b = some q := by
  obtain ⟨t, ht, hsum⟩ := exists_edAdd hden
  rw [ht, (hsum q).mpr h]

end

/-! ### EdAdd on the curve (R133, R140) -/

theorem two_ne_zero_mod_primeP : (2 : ZMod primeP) ≠ 0 := by
  have h : ((2 : Nat) : ZMod primeP) ≠ 0 := by
    rw [Ne, ZMod.natCast_eq_zero_iff]
    decide
  exact_mod_cast h

theorem edProduct_denominators_ne_zero {a b : Point} (ha : onCurve a = true) (hb : onCurve b = true) :
    1 + edProduct a b ≠ 0 ∧ 1 - edProduct a b ≠ 0 := by
  have hf := Fact.mk primeP_prime
  rw [onCurve_iff_edwardsEq] at ha hb
  exact denominators_ne_zero curveD_not_isSquare two_ne_zero_mod_primeP ha hb

/-- EdAdd is complete on the curve, and its result is a curve point (R140). -/
theorem edAdd_onCurve {a b : Point} (ha : onCurve a = true) (hb : onCurve b = true) :
    ∃ q, edAdd a b = some q ∧ onCurve q = true ∧ q.1 < primeP ∧ q.2 < primeP := by
  have hf := Fact.mk primeP_prime
  have hden := edProduct_denominators_ne_zero ha hb
  obtain ⟨q, hq, hsum⟩ := exists_edAdd hden
  obtain ⟨⟨hx, hxeq⟩, ⟨hy, hyeq⟩⟩ := (hsum q).mp rfl
  rw [onCurve_iff_edwardsEq] at ha hb
  exact ⟨q, hq, (onCurve_iff_edwardsEq q).mpr (ha.add hb hden.1 hden.2 hxeq hyeq), hx, hy⟩

/-- O + Q = Q: both denominators are 1 (R133). -/
theorem edAdd_neutral_left {q : Point} (hx : q.1 < primeP) (hy : q.2 < primeP) : edAdd neutral q = some q := by
  have hf := Fact.mk primeP_prime
  have hd : edProduct neutral q = 0 := by simp [edProduct, neutral]
  exact edAdd_eq_some (by simp [hd]) ⟨⟨hx, by rw [hd]; simp [neutral]⟩, ⟨hy, by rw [hd]; simp [neutral]⟩⟩

/-- P + O = P (R133). -/
theorem edAdd_neutral_right {q : Point} (hx : q.1 < primeP) (hy : q.2 < primeP) : edAdd q neutral = some q := by
  have hf := Fact.mk primeP_prime
  have hd : edProduct q neutral = 0 := by simp [edProduct, neutral]
  exact edAdd_eq_some (by simp [hd]) ⟨⟨hx, by rw [hd]; simp [neutral]⟩, ⟨hy, by rw [hd]; simp [neutral]⟩⟩

/-- The negative of a point, its x negated modulo p (R146). -/
def edNeg (q : Point) : Point := ((primeP - q.1 % primeP) % primeP, q.2)

theorem edNeg_snd (q : Point) : (edNeg q).2 = q.2 := rfl

theorem edNeg_fst_cast (q : Point) : ((edNeg q).1 : ZMod primeP) = -q.1 := by
  have hle : q.1 % primeP ≤ primeP := (Nat.mod_lt _ primeP_pos).le
  simp [edNeg, Nat.cast_sub hle]

theorem modInt_zero_sub_fst (q : Point) : modInt (0 - (q.1 : Int)) primeP = (edNeg q).1 := by
  refine eq_of_zmod_eq (modInt_lt primeP_pos _) (Nat.mod_lt _ primeP_pos) ?_
  rw [modInt_zmod primeP_pos, edNeg_fst_cast, zero_sub, Int.cast_neg, Int.cast_natCast]

theorem edNeg_of_lt {q : Point} (hx : q.1 < primeP) : edNeg q = ((primeP - q.1) % primeP, q.2) := by
  rw [edNeg, Nat.mod_eq_of_lt hx]

theorem onCurve_edNeg {q : Point} (h : onCurve q = true) : onCurve (edNeg q) = true := by
  rw [onCurve_iff_edwardsEq, EdwardsEq] at h ⊢
  rw [edNeg_fst_cast, edNeg_snd]
  linear_combination h

/-- A curve point and its negative add to O: the x fraction is 0, and the y fraction 1 by the curve equation. -/
theorem edAdd_edNeg {q : Point} (h : onCurve q = true) : edAdd q (edNeg q) = some neutral := by
  refine edAdd_eq_some (edProduct_denominators_ne_zero h (onCurve_edNeg h)) ⟨⟨by decide, ?_⟩, ⟨by decide, ?_⟩⟩
  · rw [edNeg_fst_cast, edNeg_snd, neutral]
    push_cast
    ring
  · rw [onCurve_iff_edwardsEq, EdwardsEq] at h
    rw [edProduct, edNeg_fst_cast, edNeg_snd, neutral]
    push_cast
    linear_combination -h

/-- Settles O55: the identity on both sides, and the negative of a curve point. -/
theorem neutralAndNegation : Obligations.NeutralAndNegation :=
  ⟨fun _ hx hy => ⟨edAdd_neutral_left hx hy, edAdd_neutral_right hx hy⟩, fun _ h => edAdd_edNeg h⟩

/-! ### EdMulRaw (R141) -/

/-- Appending a low bit to the scalar doubles the result and adds the point where the bit is 1; the scalar 0 has no bit
to double for. -/
theorem edMulRaw_two_mul_add (q : Point) {k b : Nat} (hk : k ≠ 0) (hb : b < 2) : edMulRaw q (2 * k + b) =
    (edMulRaw q k).bind fun u => (edAdd u u).bind fun w => if b = 1 then edAdd w q else some w := by
  rw [edMulRaw, bitLength_two_mul_add hk hb, edMulFrom_snoc q k b _ hb, edMulRaw]

theorem edMulRaw_two_mul (q : Point) {k : Nat} (hk : k ≠ 0) :
    edMulRaw q (2 * k) = (edMulRaw q k).bind fun u => edAdd u u := by
  simpa using edMulRaw_two_mul_add q hk (b := 0) (by decide)

theorem edMulRaw_two_mul_add_one (q : Point) (k : Nat) :
    edMulRaw q (2 * k + 1) = (edMulRaw q k).bind fun u => (edAdd u u).bind fun w => edAdd w q := by
  by_cases hk : k = 0
  · subst hk
    exact edMulFrom_snoc q 0 1 0 (by decide) neutral
  · exact edMulRaw_two_mul_add q hk (by decide)

/-- Each step of the loop keeps a curve point on the curve and never fails there (R140, R141). -/
theorem edMulFrom_onCurve {a : Point} (ha : onCurve a = true) (k i : Nat) {q : Point} (hq : onCurve q = true) :
    ∃ t, edMulFrom a k i q = some t ∧ onCurve t = true := by
  induction i generalizing q with
  | zero => exact ⟨q, rfl, hq⟩
  | succ i ih =>
    obtain ⟨q₂, hdouble, hq₂, -⟩ := edAdd_onCurve hq hq
    have hbit : ∃ q₃, (if k.testBit i then edAdd q₂ a else some q₂) = some q₃ ∧ onCurve q₃ = true := by
      split
      · obtain ⟨q₃, hadd, hq₃, -⟩ := edAdd_onCurve hq₂ ha
        exact ⟨q₃, hadd, hq₃⟩
      · exact ⟨q₂, rfl, hq₂⟩
    obtain ⟨q₃, hadd, hq₃⟩ := hbit
    simpa only [edMulFrom, hdouble, hadd] using ih hq₃

theorem edMulRaw_onCurve {a : Point} (ha : onCurve a = true) (k : Nat) :
    ∃ t, edMulRaw a k = some t ∧ onCurve t = true := edMulFrom_onCurve ha k _ (by decide)

/-! ### Point registers (R33, R136, R137) -/

/-- WriteP with ISO written out by coordinates. -/
theorem writePoint_eq (s : State) (pd : PReg) (q : Point) : s.writePoint pd q = { s with
    e := (s.e.set (xReg pd) (BitVec.ofNat 256 q.1)).set (yReg pd) (BitVec.ofNat 256 q.2)
    flags := { s.flags with iso := decide (q.1 = 0 ∧ q.2 = 1) } } := by
  have hiso : decide (q = neutral) = decide (q.1 = 0 ∧ q.2 = 1) := decide_eq_decide.mpr Prod.ext_iff
  rw [← hiso]
  rfl

theorem readPoint_eq_mod (s : State) (k : PReg) :
    s.readPoint k = (s.e[xReg k].toNat % primeP, s.e[yReg k].toNat % primeP) := rfl

theorem readPoint_lt (s : State) (k : PReg) : (s.readPoint k).1 < primeP ∧ (s.readPoint k).2 < primeP :=
  ⟨Nat.mod_lt _ primeP_pos, Nat.mod_lt _ primeP_pos⟩

theorem primeP_lt : primeP < 2 ^ 256 := modulusValue_lt .p

/-- A reduced point is read back as it was written. -/
theorem readPoint_writePoint (s : State) (k : PReg) {q : Point} (hx : q.1 < primeP) (hy : q.2 < primeP) :
    (s.writePoint k q).readPoint k = q := by
  have hne : xReg k ≠ yReg k := by simp [xReg, yReg]
  have hread (r : EReg) : (s.writePoint k q).readE r =
      if r = yReg k then q.2 else if r = xReg k then q.1 else s.readE r :=
    (readE_writeE _ _ _ (hy.trans primeP_lt)).trans (by rw [readE_writeE _ _ _ (hx.trans primeP_lt)])
  simp [State.readPoint, hread, hne, Nat.mod_eq_of_lt hx, Nat.mod_eq_of_lt hy]

/-! ### The commands' equations (R143 to R150) -/

section
variable (pd pa pb : PReg) (rd rs2 : EReg) (s : State)

theorem exec_pneut : exec (.pneut pd) s = .next (s.writePoint pd neutral) := rfl

theorem exec_pgen : exec (.pgen pd) s = .next (s.writePoint pd generator) := rfl

theorem exec_pneg : exec (.pneg pd pa) s = .next (s.writePoint pd (edNeg (s.readPoint pa))) := by
  show execPneg pd pa s = _
  rw [execPneg, commit_ok, modInt_zero_sub_fst]
  rfl

theorem exec_peq : exec (.peq pa pb) s = .next (s.setEq (decide (s.readPoint pa = s.readPoint pb))) := rfl

theorem exec_ponc : exec (.ponc pa) s = .next (s.setOnc (onCurve (s.readPoint pa))) := rfl

theorem exec_pcomp : exec (.pcomp rd pa) s =
    .next ((s.writeE rd (s.readPoint pa).2).setXlsb (decide ((s.readPoint pa).1 % 2 = 1))) := rfl

theorem exec_padd : exec (.padd pd pa pb) s =
    s.commit (s.writePointOrNoInverse pd (edAdd (s.readPoint pa) (s.readPoint pb))) := rfl

theorem exec_pmul : exec (.pmul pd pa rs2) s =
    s.commit (s.writePointOrNoInverse pd (edMulRaw (s.readPoint pa) (s.e[rs2].toNat % orderR))) := rfl

end

/-- Settles O52: the two equations; the curve equation of G is one computation. -/
theorem constantPointResults : Obligations.ConstantPointResults := fun pd s =>
  ⟨rfl, rfl, (exec_pneut pd s).trans (congrArg _ (writePoint_eq s pd neutral)), genX, genY, by decide, by decide,
    by decide, by decide, (exec_pgen pd s).trans (congrArg _ (writePoint_eq s pd generator))⟩

theorem sub_mod_eq_zero_iff {x : Nat} (hx : x < primeP) : (primeP - x) % primeP = 0 ↔ x = 0 := by
  rcases Nat.eq_zero_or_pos x with rfl | h0
  · simp
  · rw [Nat.mod_eq_of_lt (by omega)]
    omega

/-- The curve equation as one of remainders. -/
theorem onCurve_eq_decide (q : Point) : onCurve q =
    decide ((q.1 * q.1 + q.2 * q.2) % primeP = (1 + 15343 * q.1 * q.1 * q.2 * q.2) % primeP) := by
  rw [Bool.eq_iff_iff, onCurve_iff_edwardsEq, decide_eq_true_iff, ← ZMod.natCast_eq_natCast_iff', EdwardsEq]
  simp [curveD]

/-- Settles O56: the four equations on the reduced coordinates. -/
theorem pointQueryResults : Obligations.PointQueryResults := by
  intro pd pa pb rd s xa ya xb yb
  have hxa : xa < primeP := Nat.mod_lt _ primeP_pos
  refine ⟨?_, ?_, ?_, exec_pcomp pa rd s⟩
  · have hiso : decide ((primeP - xa) % primeP = 0 ∧ ya = 1) = decide (xa = 0 ∧ ya = 1) :=
      decide_eq_decide.mpr (and_congr_left' (sub_mod_eq_zero_iff hxa))
    rw [exec_pneg, readPoint_eq_mod, edNeg_of_lt hxa, writePoint_eq, hiso]
  · rw [exec_peq, readPoint_eq_mod, readPoint_eq_mod, decide_eq_decide.mpr Prod.mk_inj]
    rfl
  · rw [exec_ponc, onCurve_eq_decide]
    rfl

/-! ### PADD and PMUL (R145, R147) -/

theorem commit_writePointOrNoInverse_some (s : State) (pd : PReg) (q : Point) :
    s.commit (s.writePointOrNoInverse pd (some q)) = .next (s.writePoint pd q) := rfl

theorem commit_writePointOrNoInverse_none (s : State) (pd : PReg) :
    s.commit (s.writePointOrNoInverse pd none) = .next (s.recordError .noInverse s.cmdL) := rfl

theorem emod_primeP_eq_zero_iff (v : Int) : v % (primeP : Nat) = 0 ↔ (v : ZMod primeP) = 0 := by
  rw [ZMod.intCast_zmod_eq_zero_iff_dvd, Int.dvd_iff_emod_eq_zero]

/-- Settles O53: what EdAdd can answer (`edAdd_cases`), read as a statement about integers modulo p. -/
theorem paddResult : Obligations.PaddResult := by
  intro pd pa pb s x1 y1 x2 y2 dd
  have hcast (r : EReg) : (((s.e[r].toNat : Int) % (primeP : Nat) : Int) : ZMod primeP) =
      ((s.e[r].toNat % primeP : Nat) : ZMod primeP) := by
    rw [ZMod.intCast_mod, Int.cast_natCast, ZMod.natCast_mod]
  have hx1 : (x1 : ZMod primeP) = (s.readPoint pa).1 := hcast _
  have hy1 : (y1 : ZMod primeP) = (s.readPoint pa).2 := hcast _
  have hx2 : (x2 : ZMod primeP) = (s.readPoint pb).1 := hcast _
  have hy2 : (y2 : ZMod primeP) = (s.readPoint pb).2 := hcast _
  have hdd : (dd : ZMod primeP) = edProduct (s.readPoint pa) (s.readPoint pb) := by
    simp only [dd, edProduct, ← hx1, ← hy1, ← hx2, ← hy2, curveD]
    push_cast
    rfl
  have hp : (1 + dd) % (primeP : Nat) = 0 ↔ 1 + edProduct (s.readPoint pa) (s.readPoint pb) = 0 := by
    rw [emod_primeP_eq_zero_iff, Int.cast_add, Int.cast_one, hdd]
  have hm : (1 - dd) % (primeP : Nat) = 0 ↔ 1 - edProduct (s.readPoint pa) (s.readPoint pb) = 0 := by
    rw [emod_primeP_eq_zero_iff, Int.cast_sub, Int.cast_one, hdd]
  constructor
  · intro hp0 hm0
    obtain ⟨q, hq, hsum⟩ := exists_edAdd ⟨mt hp.mpr hp0, mt hm.mpr hm0⟩
    obtain ⟨⟨hx, hxeq⟩, ⟨hy, hyeq⟩⟩ := (hsum q).mp rfl
    refine ⟨q.1, q.2, hx, hy, ?_, ?_, ?_⟩
    · rw [← ZMod.intCast_eq_intCast_iff]
      push_cast
      rw [hdd, hx1, hy1, hx2, hy2, hxeq]
    · rw [← ZMod.intCast_eq_intCast_iff]
      push_cast
      rw [hdd, hx1, hy1, hx2, hy2, hyeq]
    · rw [exec_padd, hq, commit_writePointOrNoInverse_some, writePoint_eq]
  · intro h0
    rw [exec_padd, edAdd_eq_none (h0.imp hp.mp hm.mp), commit_writePointOrNoInverse_none]

/-- Settles O54: `edAdd_onCurve`, and the point that PADD then writes is read back as it is. -/
theorem curveAdditionComplete : Obligations.CurveAdditionComplete := by
  refine ⟨fun _ _ => edAdd_onCurve, fun pd pa pb s ha hb => ?_⟩
  obtain ⟨q, hq, hon, hx, hy⟩ := edAdd_onCurve ha hb
  refine ⟨s.writePoint pd q, ?_, ?_, rfl, rfl, rfl⟩
  · rw [exec_padd, hq, commit_writePointOrNoInverse_some]
  · rwa [readPoint_writePoint s pd hx hy]

theorem exec_pmul_of_some {pa : PReg} {rs2 : EReg} {s : State} {x y : Nat}
    (h : edMulRaw (s.readPoint pa) (s.e[rs2].toNat % orderR) = some (x, y)) (pd : PReg) :
    exec (.pmul pd pa rs2) s = .next { s with
      e := (s.e.set (xReg pd) (BitVec.ofNat 256 x)).set (yReg pd) (BitVec.ofNat 256 y)
      flags := { s.flags with iso := decide (x = 0 ∧ y = 1) } } := by
  rw [exec_pmul, h, commit_writePointOrNoInverse_some, writePoint_eq]

/-- Settles O57: PMUL's two outcomes, and the recurrences of EdMulRaw. -/
theorem pmulResult : Obligations.PmulResult := by
  refine ⟨fun pd pa rs2 s => ⟨fun x y h => exec_pmul_of_some h pd, fun h => ?_⟩,
    fun q k => ⟨edMulRaw_zero q, ?_, edMulRaw_two_mul_add_one q k⟩⟩
  · rw [exec_pmul, readPoint_eq_mod, h, commit_writePointOrNoInverse_none]
  · split
    · next hk => rw [hk]; exact edMulRaw_zero q
    · next hk => exact edMulRaw_two_mul q hk

/-- Settles O58: EdMulRaw completes on the curve, and PMUL writes what it gives. -/
theorem pmulOnCurveCompletes : Obligations.PmulOnCurveCompletes := by
  intro pd pa rs2 s ha
  obtain ⟨⟨x, y⟩, ht, hon⟩ := edMulRaw_onCurve ha (s.e[rs2].toNat % orderR)
  exact ⟨x, y, ht, hon, exec_pmul_of_some ht pd⟩

/-! ### Decompression (R151, R152) -/

/-- The inverse that PDEC needs exists, and the curve equation is one for the square of x (R151, R152). -/
theorem exists_inverse_denominator (y : Nat) :
    ∃ i, invMod primeP (modInt (1 - curveD * (y : Int) * y) primeP) = some i ∧
      ∀ x, onCurve (x, y) = true ↔ x * x % primeP = modInt (1 - (y : Int) * y) primeP * i % primeP % primeP := by
  have hf := Fact.mk primeP_prime
  have hden := one_sub_mul_sq_ne_zero curveD_not_isSquare (y : ZMod primeP)
  have hcases := invMod_modInt_cases (1 - curveD * (y : Int) * y)
  push_cast at hcases
  obtain ⟨hzero, -⟩ | ⟨-, i, hi, hinv⟩ := hcases
  · exact absurd hzero hden
  refine ⟨i, hi, fun x => ?_⟩
  rw [onCurve_iff_edwardsEq, EdwardsEq, Nat.mod_mod, ← ZMod.natCast_eq_natCast_iff']
  push_cast
  rw [modInt_zmod primeP_pos, hinv, eq_mul_inv_iff_mul_eq₀ hden]
  push_cast
  constructor <;> intro h <;> linear_combination h

/-- Two curve points with the same y have the same x or opposite ones, of which the parity tells which, p being odd. -/
theorem eq_of_onCurve_of_parity {x x' y : Nat} (hx : x < primeP) (hx' : x' < primeP) (h : onCurve (x, y) = true)
    (h' : onCurve (x', y) = true) (hparity : x' ≠ 0 → x' % 2 = x % 2) : x' = x := by
  have hf := Fact.mk primeP_prime
  obtain ⟨i, -, hroot⟩ := exists_inverse_denominator y
  have hsq : (x' : ZMod primeP) * x' = x * x := by
    exact_mod_cast (ZMod.natCast_eq_natCast_iff' (x' * x') (x * x) primeP).mpr
      (((hroot x').mp h').trans ((hroot x).mp h).symm)
  obtain heq | hneg := mul_self_eq_mul_self_iff.mp hsq
  · exact eq_of_zmod_eq hx' hx heq
  · have hdvd : primeP ∣ x' + x := by
      rw [← ZMod.natCast_eq_zero_iff, Nat.cast_add, hneg, neg_add_cancel]
    obtain ⟨c, hc⟩ := hdvd
    have hodd : primeP % 2 = 1 := by decide
    have hc2 : c < 2 := by
      by_contra hge
      have := Nat.mul_le_mul_left primeP (Nat.not_lt.mp hge)
      omega
    interval_cases c <;> omega

theorem mul_self_mod_primeP_ne_zero {c : Nat} (hc : c < primeP) (h0 : c ≠ 0) : c * c % primeP ≠ 0 := fun h =>
  h0 (Nat.eq_zero_of_dvd_of_lt (or_self_iff.mp ((Nat.Prime.dvd_mul primeP_prime).mp (Nat.dvd_of_mod_eq_zero h))) hc)

theorem decompress_of_no_root {v : Nat} (h : ∀ x < primeP, onCurve (x, v % primeP) = false) (lsb : Bool) :
    decompress v lsb = some .noRoot := by
  obtain ⟨i, hi, hroot⟩ := exists_inverse_denominator (v % primeP)
  have hnone : sqrtP (modInt (1 - ((v % primeP : Nat) : Int) * (v % primeP : Nat)) primeP * i % primeP) lsb = none := by
    refine sqrtP_of_not_square (fun x hx => ?_) lsb
    have hon := (hroot (x % primeP)).mpr ((Nat.mul_mod x x primeP).symm.trans hx)
    rw [h _ (Nat.mod_lt _ primeP_pos)] at hon
    cases hon
  simp only [decompress, hi, hnone]

/-- Where y has a curve point, PDEC takes the root of the requested parity and tests r times the point (R151). -/
theorem decompress_of_root {v x : Nat} (h : onCurve (x, v % primeP) = true) (lsb : Bool) :
    ∃ c < primeP, onCurve (c, v % primeP) = true ∧ (c ≠ 0 → c % 2 = lsb.toNat) ∧
      ∃ u, edMulRaw (c, v % primeP) orderR = some u ∧
        decompress v lsb = some (if u = neutral then .point (c, v % primeP) else .notTorsion) := by
  obtain ⟨i, hi, hroot⟩ := exists_inverse_denominator (v % primeP)
  obtain ⟨c, hc, hlt, hsq, hparity⟩ := sqrtP_of_square ((hroot x).mp h) lsb
  have hon := (hroot c).mpr hsq
  obtain ⟨u, hu, -⟩ := edMulRaw_onCurve hon orderR
  refine ⟨c, hlt, hon, fun h0 => hparity (hsq ▸ mul_self_mod_primeP_ne_zero hlt h0), u, hu, ?_⟩
  simp only [decompress, hi, hc, hu]
  split <;> rfl

/-- What PDEC writes: a point, NOROOT and NOTORS (R151). -/
def State.writeDecoded (s : State) (pd : PReg) (q : Point) (noroot notors : Bool) : State :=
  ((s.writePoint pd q).setNoroot noroot).setNotors notors

theorem writeDecoded_eq (s : State) (pd : PReg) (q : Point) (noroot notors : Bool) :
    s.writeDecoded pd q noroot notors = { s with
      e := (s.e.set (xReg pd) (BitVec.ofNat 256 q.1)).set (yReg pd) (BitVec.ofNat 256 q.2)
      flags := { s.flags with noroot := noroot, notors := notors, iso := decide (q.1 = 0 ∧ q.2 = 1) } } := by
  rw [State.writeDecoded, writePoint_eq]
  rfl

section
variable {rs1 : EReg} {lsb : Bool} {s : State}

theorem exec_pdec_of_noRoot (h : decompress (s.readE rs1) lsb = some .noRoot) (pd : PReg) :
    exec (.pdec pd rs1 lsb) s = .next (s.writeDecoded pd neutral true false) := by
  show execPdec pd rs1 lsb s = _
  rw [execPdec, h]
  rfl

theorem exec_pdec_of_notTorsion (h : decompress (s.readE rs1) lsb = some .notTorsion) (pd : PReg) :
    exec (.pdec pd rs1 lsb) s = .next (s.writeDecoded pd neutral false true) := by
  show execPdec pd rs1 lsb s = _
  rw [execPdec, h]
  rfl

theorem exec_pdec_of_point {q : Point} (h : decompress (s.readE rs1) lsb = some (.point q)) (pd : PReg) :
    exec (.pdec pd rs1 lsb) s = .next (s.writeDecoded pd q false false) := by
  show execPdec pd rs1 lsb s = _
  rw [execPdec, h]
  rfl

end

/-- Settles O59: PDEC's three outcomes, by whether y has a curve point and by the torsion check. -/
theorem pdecResult : Obligations.PdecResult := by
  intro pd rs1 lsb s y result
  constructor
  · intro h
    rw [exec_pdec_of_noRoot (decompress_of_no_root h lsb), writeDecoded_eq]
    rfl
  · rintro ⟨x, -, hx⟩
    obtain ⟨c, hlt, hon, hparity, u, hu, hdec⟩ := decompress_of_root hx lsb
    refine ⟨c, hlt, hon, hparity, u, hu, fun hO => ?_, fun hO => ?_⟩
    · rw [exec_pdec_of_point (hdec.trans (congrArg some (if_pos hO))), writeDecoded_eq]
    · rw [exec_pdec_of_notTorsion (hdec.trans (congrArg some (if_neg hO))), writeDecoded_eq]
      rfl

/-- Settles O60: PCOMP leaves y and the parity of x, and the curve point of that y and parity is the one PDEC finds. -/
theorem decompressionInvertsCompression : Obligations.DecompressionInvertsCompression := by
  intro rd pa pd s hon htors
  obtain ⟨hx, hy⟩ := readPoint_lt s pa
  generalize hq : s.readPoint pa = q at *
  obtain ⟨x, y⟩ := q
  have hcomp := exec_pcomp pa rd s
  rw [hq] at hcomp
  generalize ht : (s.writeE rd y).setXlsb (decide (x % 2 = 1)) = t at *
  have hy' : t.readE rd = y := by
    rw [← ht]
    exact (readE_writeE s rd rd (hy.trans primeP_lt)).trans (if_pos rfl)
  have hlsb : t.flags.xlsb.toNat = x % 2 := by
    rw [← ht]
    rcases Nat.mod_two_eq_zero_or_one x with h | h <;> simp [h]
  have hmod : t.readE rd % primeP = y := by rw [hy', Nat.mod_eq_of_lt hy]
  obtain ⟨c, hlt, hc, hparity, u, hu, hdec⟩ := decompress_of_root (hmod ▸ hon) t.flags.xlsb
  rw [hmod] at hc hu hdec
  obtain rfl := eq_of_onCurve_of_parity hx hlt hon hc (hlsb ▸ hparity)
  obtain rfl := Option.some.inj (htors.symm.trans hu)
  exact ⟨t, _, hcomp, exec_pdec_of_point (hdec.trans (congrArg some (if_pos rfl))) pd,
    readPoint_writePoint t pd hlt hy, rfl, rfl⟩

end Sys2Proof.Machine
end

section
/-! The error registers (60_exceptions.md; O26, O29): which errors a command may record, said once for all commands, and
what each kind of turn does with ERR, ERRCODE and ERRINFO while ERR = 1. -/

namespace Sys2Proof.Machine

/-! ### The errors of each command (R155) -/

/-- R155's table for well-formed words: the errors a command's own rule names. IllegalOpcode and IllegalField belong to
the words that are not well formed. -/
def namedErrors : Instr → List ErrorName
  | .kabs | .ksqz | .kdig => [.spongeState, .range]
  | .kfin => [.spongeState]
  | .ldbe _ _ | .stbe _ => [.range]
  | .finv _ _ _ | .padd _ _ _ | .pmul _ _ _ => [.noInverse]
  | _ => []

theorem mem_namedErrors {i : Instr} {x : ErrorName} (h : x ∈ namedErrors i) :
    (x = .spongeState ∧ (i = .kabs ∨ i = .kfin ∨ i = .ksqz ∨ i = .kdig)) ∨
    (x = .range ∧ (i = .kabs ∨ i = .ksqz ∨ i = .kdig ∨ (∃ m rd, i = .ldbe m rd) ∨ ∃ rs1, i = .stbe rs1)) ∨
    (x = .noInverse ∧ ((∃ m rd rs1, i = .finv m rd rs1) ∨ (∃ pd pa pb, i = .padd pd pa pb) ∨
      ∃ pd pa rs2, i = .pmul pd pa rs2)) := by
  unfold namedErrors at h
  split at h <;> simp at h <;> simp [h]

/-- What a command's rule may end in, as to the error registers: writes that leave ERRCODE as it was, an error of the
command's row of the table, or the model fault of R53. -/
inductive ErrorResult (i : Instr) (s : State) : Except Stop State → Prop where
  | writes {t : State} (h : t.errCode = s.errCode) : ErrorResult i s (.ok t)
  | raises {x : ErrorName} (h : x ∈ namedErrors i) : ErrorResult i s (.error (.raise x))
  | faults (f : Fault) : ErrorResult i s (.error (.fault f))

/-- A point result, or NoInverse (R139, R141). -/
theorem errorResult_writePointOrNoInverse {i : Instr} (hi : .noInverse ∈ namedErrors i) (s : State) (pd : PReg)
    (r : Option Point) : ErrorResult i s (s.writePointOrNoInverse pd r) := by
  cases r with
  | none => exact .raises hi
  | some q => exact .writes rfl

/-- KINIT of a variant's code starts the sponge (R105). -/
theorem exec_kinit_errorResult {v : BitVec 3} (hv : v.toNat ≤ 5) (s : State) :
    ∃ r, exec (.kinit v) s = s.commit r ∧ ErrorResult (.kinit v) s r := by
  obtain ⟨x, hx⟩ := exists_variantCode_eq hv
  exact ⟨.ok _, exec_kinit_of_variant (variantOfCode_eq_some hx) s, .writes rfl⟩

theorem exec_kabs_errorResult (s : State) : ∃ r, exec .kabs s = s.commit r ∧ ErrorResult .kabs s r := by
  refine ⟨_, rfl, ?_⟩
  split
  · exact .raises (by decide)
  split
  · exact .raises (by decide)
  split
  · exact .faults _
  · exact .writes rfl

theorem exec_kfin_errorResult (s : State) : ∃ r, exec .kfin s = s.commit r ∧ ErrorResult .kfin s r := by
  refine ⟨_, rfl, ?_⟩
  split
  · exact .raises (by decide)
  · exact .writes rfl

theorem exec_ksqz_errorResult (s : State) : ∃ r, exec .ksqz s = s.commit r ∧ ErrorResult .ksqz s r := by
  refine ⟨_, rfl, ?_⟩
  split
  · exact .raises (by decide)
  split
  · exact .raises (by decide)
  · exact .writes rfl

theorem exec_kdig_errorResult (s : State) : ∃ r, exec .kdig s = s.commit r ∧ ErrorResult .kdig s r := by
  refine ⟨_, rfl, ?_⟩
  split
  · exact .raises (by decide)
  split
  · exact .raises (by decide)
  split
  · exact .raises (by decide)
  · exact .writes rfl

theorem exec_finv_errorResult (m : Modulus) (rd rs1 : EReg) (s : State) :
    ∃ r, exec (.finv m rd rs1) s = s.commit r ∧ ErrorResult (.finv m rd rs1) s r := by
  refine ⟨_, rfl, ?_⟩
  split
  · exact .raises List.mem_cons_self
  · exact .writes rfl

/-- A missing root is the flag NOROOT, no error (R128). -/
theorem exec_fsqrt_errorResult (rd rs1 : EReg) (lsb : Bool) (s : State) :
    ∃ r, exec (.fsqrt rd rs1 lsb) s = s.commit r ∧ ErrorResult (.fsqrt rd rs1 lsb) s r := by
  refine ⟨_, rfl, ?_⟩
  split <;> exact .writes rfl

theorem exec_ldbe_errorResult (m : Modulus) (rd : EReg) (s : State) :
    ∃ r, exec (.ldbe m rd) s = s.commit r ∧ ErrorResult (.ldbe m rd) s r := by
  refine ⟨_, rfl, ?_⟩
  split
  · exact .raises List.mem_cons_self
  split
  · exact .raises List.mem_cons_self
  split
  · exact .faults _
  · exact .writes rfl

theorem exec_stbe_errorResult (rs1 : EReg) (s : State) :
    ∃ r, exec (.stbe rs1) s = s.commit r ∧ ErrorResult (.stbe rs1) s r := by
  refine ⟨_, rfl, ?_⟩
  split
  · exact .raises List.mem_cons_self
  · exact .writes rfl

/-- Every well-formed command but PDEC ends in one commit, of writes, of an error its rule names, or of the fault. -/
theorem exec_errorResult {i : Instr} (hw : i.wellFormed = true) (hp : ∀ pd rs1 lsb, i ≠ .pdec pd rs1 lsb) (s : State) :
    ∃ r, exec i s = s.commit r ∧ ErrorResult i s r := by
  cases i with
  | kinit v => exact exec_kinit_errorResult (of_decide_eq_true hw) s
  | kabs => exact exec_kabs_errorResult s
  | kfin => exact exec_kfin_errorResult s
  | ksqz => exact exec_ksqz_errorResult s
  | kdig => exact exec_kdig_errorResult s
  | finv m rd rs1 => exact exec_finv_errorResult m rd rs1 s
  | fsqrt rd rs1 lsb => exact exec_fsqrt_errorResult rd rs1 lsb s
  | ldbe m rd => exact exec_ldbe_errorResult m rd s
  | stbe rs1 => exact exec_stbe_errorResult rs1 s
  | padd | pmul => exact ⟨_, rfl, errorResult_writePointOrNoInverse List.mem_cons_self s _ _⟩
  | pdec pd rs1 lsb => exact absurd rfl (hp pd rs1 lsb)
  | nop | kperm | krel | fadd | fsub | fmul | fpow | fneg | fred | fmov | pneut | pgen | pneg | peq | ponc | pcomp =>
    refine ⟨.ok _, rfl, .writes ?_⟩
    rfl

/-- Settles O26: where no error was recorded before, the code recorded is the one raised, and that is in the table. -/
theorem commandsRaiseOnlyTheirErrors : Obligations.CommandsRaiseOnlyTheirErrors := by
  intro i s t x hw hp herr hcode h hx
  refine mem_namedErrors ?_
  obtain ⟨r, hr, hres⟩ := exec_errorResult hw hp s
  rcases commit_next (hr ▸ h) with rfl | ⟨y, rfl, rfl⟩
  · cases hres with
    | writes hkeep =>
      rw [hkeep, hcode] at hx
      cases hx
  · cases hres with
    | raises hy =>
      rw [recordError_of_not_err herr] at hx
      exact Option.some.inj hx ▸ hy

/-! ### The first error is kept (R158, R162, R163) -/

/-- The error registers ERR, ERRCODE and ERRINFO (R41, R45). -/
def State.errorRegs (s : State) : Bool × Option ErrorName × Word := (s.err, s.errCode, s.errInfo)

/-- While ERR = 1 no command changes the error registers, whether it completes or fails. -/
theorem exec_errorRegs {i : Instr} {s t : State} (he : s.err = true) (h : exec i s = .next t) :
    t.errorRegs = s.errorRegs := by
  rcases failingCommandsArePrecise i s t h with ⟨herr, hcode, hinfo⟩ | ⟨hn, -⟩
  · simp only [State.errorRegs, herr, hcode, hinfo]
  · rw [he] at hn
    cases hn

theorem engineTurn_errorRegs {s t : State} (he : s.err = true) (h : engineTurn s = .next t) :
    t.errorRegs = s.errorRegs := by
  rcases engineTurn_cases h with ⟨-, ho⟩ | ⟨-, x, -, ho⟩ | ⟨-, i, -, ho⟩
  · cases ho; rfl
  · rw [recordError_of_err he] at ho
    cases ho; rfl
  · cases hi : exec i s with
    | next u =>
      rw [hi] at ho
      cases ho
      exact exec_errorRegs (t := u) he hi
    | fault f => rw [hi] at ho; cases ho
    | refused r => rw [hi] at ho; cases ho

/-- CTRL is the register at offset 0x0004 only (R38). -/
theorem windowReg_ne_ctrl {off : Nat} (h : off ≠ 0x0004) : windowReg off ≠ .ctrl := by
  rw [windowReg, if_neg h]
  intro hg
  iterate 11
    obtain ⟨-, hg⟩ | ⟨-, hg⟩ := ite_eq_iff.mp hg
    · cases hg
  cases hg

/-- STATUS is the register at offset 0x0008 only (R38). -/
theorem windowReg_ne_status {off : Nat} (h : off ≠ 0x0008) : windowReg off ≠ .status := by
  rw [windowReg, if_neg h]
  intro hg
  iterate 11
    obtain ⟨-, hg⟩ | ⟨-, hg⟩ := ite_eq_iff.mp hg
    · cases hg
  cases hg

theorem writeCtrl_errorRegs (s : State) {v : Word} (hv : v.getLsbD 0 = false) :
    (s.writeCtrl v).errorRegs = s.errorRegs := by
  rw [State.writeCtrl, if_neg (Bool.eq_false_iff.mp hv)]
  rfl

theorem writeStatus_errorRegs (s : State) {v : Word} (hv : v.getLsbD 2 = false) :
    (s.writeStatus v).errorRegs = s.errorRegs := by
  rw [State.writeStatus, if_neg (Bool.eq_false_iff.mp hv)]
  split <;> rfl

/-- Only a soft reset and a write of 1 to STATUS bit 2 change the error registers through the window. -/
theorem writeWindow_errorRegs (s : State) {g : WindowReg} {v : Word} (hctrl : g = .ctrl → v.getLsbD 0 = false)
    (hstatus : g = .status → v.getLsbD 2 = false) : (s.writeWindow g v).errorRegs = s.errorRegs := by
  cases g with
  | ctrl => exact writeCtrl_errorRegs s (hctrl rfl)
  | status => exact writeStatus_errorRegs s (hstatus rfl)
  | cmd =>
    show (if s.err then s else s.acceptCommand v).errorRegs = s.errorRegs
    split <;> rfl
  | id | argAddr | argLen | flags | sponge | errInfo | kstate | ereg | scratch | reserved => rfl

theorem hostWrite_errorRegs {s t : State} {off : Offset} {v : Word} (he : s.err = true)
    (hctrl : off = 0x0004 → v.getLsbD 0 = false) (hstatus : off = 0x0008 → v.getLsbD 2 = false)
    (h : hostWrite off v s = .next t) : t.errorRegs = s.errorRegs := by
  obtain ⟨-, ⟨-, -, rfl⟩ | ⟨-, rfl⟩⟩ := hostWrite_next h
  · rw [recordError_of_err he]
  · exact writeWindow_errorRegs s
      (fun hg => hctrl (BitVec.eq_of_toNat_eq (not_imp_not.mp windowReg_ne_ctrl hg)))
      fun hg => hstatus (BitVec.eq_of_toNat_eq (not_imp_not.mp windowReg_ne_status hg))

theorem hostRead_errorRegs {s t : State} {off : Offset} (h : hostRead off s = .next t) : t.errorRegs = s.errorRegs := by
  rw [hostRead_next h]
  rfl

/-- While ERR = 1 a step that is no reset and no clearing of the error leaves the error registers as they were. -/
theorem step_errorRegs {s t : State} (he : s.err = true) (h : step s = .next t)
    (hstatus : ∀ v rest, s.schedule = .hostWrite 0x0008 v :: rest → v.getLsbD 2 = false)
    (hctrl : ∀ v rest, s.schedule = .hostWrite 0x0004 v :: rest → v.getLsbD 0 = false)
    (hreset : ∀ rest, s.schedule ≠ .hardReset :: rest) : t.errorRegs = s.errorRegs := by
  rcases step_cases h with ⟨-, hturn⟩ | ⟨u, rest, hs, hturn⟩
  · exact engineTurn_errorRegs he hturn
  · cases u with
    | hostRead off => exact hostRead_errorRegs (s := { s with schedule := rest }) hturn
    | hostWrite off v =>
      exact hostWrite_errorRegs (s := { s with schedule := rest }) he (fun ho => hctrl v rest (ho ▸ hs))
        (fun ho => hstatus v rest (ho ▸ hs)) hturn
    | engine => exact engineTurn_errorRegs (s := { s with schedule := rest }) he hturn
    | hardReset => exact absurd hs (hreset rest)

/-- Settles O29: `step_errorRegs`, register by register. -/
theorem firstErrorIsKept : Obligations.FirstErrorIsKept := by
  intro s t he h hstatus hctrl hreset
  obtain ⟨herr, hcode, hinfo⟩ : t.err = s.err ∧ t.errCode = s.errCode ∧ t.errInfo = s.errInfo := by
    simpa only [State.errorRegs, Prod.mk.injEq] using step_errorRegs he h hstatus hctrl hreset
  exact ⟨herr.trans he, hcode, hinfo⟩

end Sys2Proof.Machine
end
